-- ==== Sys2Proof/Word.lean ====
section
/-! DEFINITION. The word types of the FK340: bytes of the line and of the ports, and the wider
quantities of the layouts of R180. -/

namespace Sys2Proof

/-- One byte: a glyph, a key code, a wand character, a byte of a frame. -/
abbrev Byte := BitVec 8

/-- A quantity of two bytes (R180). -/
abbrev Half := BitVec 16

/-- A quantity of three bytes (R180): the seconds of CLOCK and DEADLINE. -/
abbrev Triple := BitVec 24

/-- A quantity of four bytes (R180): the limits and the step of FIELD. -/
abbrev Quad := BitVec 32

end Sys2Proof
end

