-- ==== Sys2Proof/Syntax.lean ====
section
/-! DEFINITION. The commands of the FK340: one constructor per row of `spec/opcode_table.json`.
The operands of a directive are the arguments of R180, as its bytes carry them. -/

namespace Sys2Proof

/-- A received character of the line: a good one with its byte, or a broken one whose stop bit was
found at space (R173). -/
inductive LineChar where
  | good (b : Byte)
  | broken
  deriving DecidableEq, Repr

/-- The class part of a FIELD directive (R180): for class NUMERIC the scale, the signed byte, the
limits flag, the pair of limits when the flag is 1 and the step; for CODE the check rule. -/
inductive FieldPart where
  | plain
  | numeric (scale signed limitsFlag : Byte) (limits : Option (Quad × Quad)) (step : Quad)
  | code (rule : Byte)
  deriving DecidableEq, Repr

/-- The arguments of a FIELD directive (R180). -/
structure FieldArgs where
  tag : Byte
  length : Byte
  kind : Byte
  cls : Byte
  options : Byte
  normal : Byte
  edit : Byte
  error : Byte
  next : Byte
  part : FieldPart
  deriving DecidableEq, Repr

/-- The 70 commands. A directive is the step in which the Stream Unit applies it; an action is the
step in which the Entry Engine carries it out. -/
inductive Instr where
  /-- POWER_UP (R178): power becomes good, with the straps LRS1, LRS0 at these levels. -/
  | powerUp (straps : BitVec 2)
  /-- RESETN_ASSERT (R178). -/
  | resetnAssert
  /-- RESETN_RELEASE (R178): the straps LRS1, LRS0 are at these levels. -/
  | resetnRelease (straps : BitVec 2)
  /-- START_END (R178). -/
  | startEnd
  /-- LINE_RESET (R179). -/
  | lineReset
  /-- BASE_TICK (R162, R6). -/
  | baseTick
  /-- MILLISECOND_ADVANCE (R162): a base tick whose sum reaches 65,536. -/
  | millisecondAdvance
  /-- BLINK_FLIP (R6): a base tick at which the blink count would reach 1,024. -/
  | blinkFlip
  /-- CHAIN_TIMEOUT (R45). -/
  | chainTimeout
  /-- LINE_CHARACTER (R175). -/
  | lineCharacter (c : LineChar)
  /-- RECEIVE_GAP (R175). -/
  | receiveGap
  /-- FRAME_SENT (R177). -/
  | frameSent
  /-- BLOCK_TAKEN (R41). -/
  | blockTaken
  /-- CHAIN_CONTINUATION (R45). -/
  | chainContinuation
  /-- DIRECTIVE_UNKNOWN (R42): the byte at the offset reached is this code. -/
  | directiveUnknown (code : Byte)
  /-- AT (R47). -/
  | setAt (row col : Byte)
  /-- WRITE (R49); the count is the number of glyphs. -/
  | write (glyphs : List Byte)
  /-- FILL (R50). -/
  | fill (glyph : Byte) (count : Half)
  /-- STYLE (R48). -/
  | style (number : Byte)
  /-- ERASE (R51). -/
  | erase (count : Half)
  /-- CLEAR_FORM (R53). -/
  | clearForm
  /-- FIELD (R22 to R24). -/
  | field (args : FieldArgs)
  /-- SOURCES (R31); the count is the number of tags. -/
  | sources (tally : Byte) (tags : List Byte)
  /-- DROP (R25). -/
  | drop (tag : Byte)
  /-- PUT (R27); the count is the number of glyphs. -/
  | put (tag force : Byte) (glyphs : List Byte)
  /-- UNMARK (R36). -/
  | unmark (tag : Byte)
  /-- CURSOR (R54). -/
  | cursor (row col : Byte)
  /-- CURSOR_FIELD (R55). -/
  | cursorField (tag : Byte)
  /-- OVERLAY (R135). -/
  | overlay (top left height width style : Byte)
  /-- RESTORE (R141). -/
  | restore (discard : Byte)
  /-- TABLE (R56); the entries as bytes, none for a table number that is not listed (R180). -/
  | table (number plane start count : Byte) (entries : List Byte)
  /-- ROUTE_MATCH (R124); `lead` holds the glyphs that the entry compares. -/
  | routeMatch (index : Byte) (lead : List Byte) (shortest longest : Byte)
  /-- ROUTE_ACTION (R125). -/
  | routeAction (index target strip keep flags key : Byte)
  /-- CLOCK (R163). -/
  | clock (day : Half) (second : Triple) (millisecond : Half)
  /-- RATE (R164). -/
  | rate (addend : Half)
  /-- DEADLINE (R167); the day is present when bit 0 of the flags is set. -/
  | deadline (index flags : Byte) (day : Option Half) (second : Triple) (tag style : Byte)
  /-- DEADLINE_OFF (R167). -/
  | deadlineOff (index : Byte)
  /-- TONE (R171); each step a pitch code and a duration in units of 10 ms. -/
  | tone (steps : List (Byte × Byte))
  /-- OPTIONS (R59). -/
  | options (flags : Byte)
  /-- READ (R60). -/
  | read (selector : Byte)
  /-- READ_RESUME (R61). -/
  | readResume
  /-- KEY_BYTE (R83). -/
  | keyByte (b : Byte)
  /-- WAND_BYTE (R120): a byte other than 0x0D. -/
  | wandByte (b : Byte)
  /-- SCAN_COMPLETE (R121): the byte 0x0D at the wand port. -/
  | scanComplete
  /-- CHAR (R112). -/
  | char (glyph : Byte)
  /-- NEXT (R108). -/
  | next
  /-- PREV (R109). -/
  | prev
  /-- NEWLINE (R107). -/
  | newline
  /-- HOME (R107). -/
  | home
  /-- BACK (R111). -/
  | back
  /-- LEFT (R104). -/
  | left
  /-- RIGHT (R104). -/
  | right
  /-- UP (R105). -/
  | up
  /-- DOWN (R105). -/
  | down
  /-- BACKSPACE (R114). -/
  | backspace
  /-- DELETE (R114). -/
  | delete
  /-- ERASE_TO_END (R115). -/
  | eraseToEnd
  /-- ERASE_FIELD (R115). -/
  | eraseField
  /-- INSERT_TOGGLE (R113). -/
  | insertToggle
  /-- STEP_UP (R116). -/
  | stepUp
  /-- STEP_DOWN (R116). -/
  | stepDown
  /-- SUBMIT (R148) with its key number. -/
  | submit (key : Byte)
  /-- CANCEL (R155). -/
  | cancel
  /-- RESET (R94), taken from the queue. -/
  | reset
  /-- SCAN_PLACEMENT (R126 to R133). -/
  | scanPlacement
  /-- TONE_STEP_END (R171). -/
  | toneStepEnd
  /-- DISPLAY_ROW_START (R11). -/
  | displayRowStart
  /-- DISPLAY_ROW_END (R11). -/
  | displayRowEnd
  /-- DRDY_WITHDRAWN (R11). -/
  | drdyWithdrawn
  /-- LINE_RETURNS_TO_MARK (R179). -/
  | lineReturnsToMark
  deriving DecidableEq, Repr

end Sys2Proof
end

