-- ==== Sys2Proof/Decode.lean ====
section
/-! DEFINITION. The byte layouts of the directives (R180): a decoder from the directive list of a
block, total on any bytes, and the encoder beside it. The opcode table gives no bits to any row, so
no word spells a command. -/

namespace Sys2Proof

/-- Two bytes, most significant first (R180). -/
def half (b1 b0 : Byte) : Half := b1 ++ b0

/-- Three bytes, most significant first (R180). -/
def triple (b2 b1 b0 : Byte) : Triple := b2 ++ b1 ++ b0

/-- Four bytes, most significant first (R180). -/
def quad (b3 b2 b1 b0 : Byte) : Quad := b3 ++ b2 ++ b1 ++ b0

/-- The bytes of a quantity of two bytes, most significant first (R180). -/
def halfBytes (h : Half) : List Byte := [h.extractLsb' 8 8, h.extractLsb' 0 8]

/-- The bytes of a quantity of three bytes, most significant first (R180). -/
def tripleBytes (t : Triple) : List Byte :=
  [t.extractLsb' 16 8, t.extractLsb' 8 8, t.extractLsb' 0 8]

/-- The bytes of a quantity of four bytes, most significant first (R180). -/
def quadBytes (q : Quad) : List Byte :=
  [q.extractLsb' 24 8, q.extractLsb' 16 8, q.extractLsb' 8 8, q.extractLsb' 0 8]

/-- The first `n` bytes and the rest, when there are that many (the length check of R42). -/
def splitBytes (n : Nat) (l : List Byte) : Option (List Byte × List Byte) :=
  if n ≤ l.length then some (l.take n, l.drop n) else none

/-- Bytes taken two by two. -/
def pairUp : List Byte → List (Byte × Byte)
  | a :: b :: rest => (a, b) :: pairUp rest
  | _ => []

/-- Pairs laid out as bytes. -/
def unpair (l : List (Byte × Byte)) : List Byte := l.flatMap fun p => [p.1, p.2]

/-- Bytes of one entry of a table; a table number that is not listed has no entries (R180). -/
def entrySize (number : Byte) : Nat :=
  if number = 1 then 2 else if number = 2 then 2 else if number = 3 then 1 else 0

/-- The directive codes of R41. -/
def directiveCodes : List Byte :=
  [0x11, 0x12, 0x13, 0x14, 0x15, 0x16, 0x21, 0x22, 0x23, 0x24, 0x25, 0x26, 0x27, 0x31, 0x32,
   0x41, 0x42, 0x43, 0x51, 0x52, 0x53, 0x54, 0x55, 0x61, 0x62]

/-- The class part of FIELD, found from its class byte and its limits flag (R180). -/
def parseFieldPart (cls : Byte) (args : List Byte) : Option (FieldPart × List Byte) :=
  if cls = 2 then
    match args with
    | scale :: signed :: flag :: rest =>
      if flag = 1 then
        match rest with
        | l3 :: l2 :: l1 :: l0 :: u3 :: u2 :: u1 :: u0 :: s3 :: s2 :: s1 :: s0 :: tail =>
          some (.numeric scale signed flag
            (some (quad l3 l2 l1 l0, quad u3 u2 u1 u0)) (quad s3 s2 s1 s0), tail)
        | _ => none
      else
        match rest with
        | s3 :: s2 :: s1 :: s0 :: tail =>
          some (.numeric scale signed flag none (quad s3 s2 s1 s0), tail)
        | _ => none
    | _ => none
  else if cls = 3 then
    match args with
    | rule :: tail => some (.code rule, tail)
    | _ => none
  else some (.plain, args)

/-- The arguments of FIELD (R180). -/
def parseField (args : List Byte) : Option (Instr × List Byte) :=
  match args with
  | tag :: length :: kind :: cls :: options :: normal :: edit :: error :: next :: rest =>
    match parseFieldPart cls rest with
    | some (part, tail) =>
      some (.field { tag, length, kind, cls, options, normal, edit, error, next, part }, tail)
    | none => none
  | _ => none

/-- The arguments of DEADLINE, whose day is there when bit 0 of the flags is set (R180). -/
def parseDeadline (args : List Byte) : Option (Instr × List Byte) :=
  match args with
  | index :: flags :: rest =>
    if flags.getLsbD 0 then
      match rest with
      | d1 :: d0 :: s2 :: s1 :: s0 :: tag :: style :: tail =>
        some (.deadline index flags (some (half d1 d0)) (triple s2 s1 s0) tag style, tail)
      | _ => none
    else
      match rest with
      | s2 :: s1 :: s0 :: tag :: style :: tail =>
        some (.deadline index flags none (triple s2 s1 s0) tag style, tail)
      | _ => none
  | _ => none

/-- The arguments of TABLE: count × entry size bytes of entries (R180). -/
def parseTable (args : List Byte) : Option (Instr × List Byte) :=
  match args with
  | number :: plane :: start :: count :: rest =>
    match splitBytes (count.toNat * entrySize number) rest with
    | some (entries, tail) => some (.table number plane start count entries, tail)
    | none => none
  | _ => none

/-- The arguments of ROUTE MATCH (R180). -/
def parseRouteMatch (args : List Byte) : Option (Instr × List Byte) :=
  match args with
  | index :: count :: rest =>
    match splitBytes count.toNat rest with
    | some (lead, shortest :: longest :: tail) =>
      some (.routeMatch index lead shortest longest, tail)
    | _ => none
  | _ => none

/-- A count and that many bytes (WRITE, and the ends of SOURCES and PUT; R180). -/
def parseCounted (args : List Byte) : Option (List Byte × List Byte) :=
  match args with
  | count :: rest => splitBytes count.toNat rest
  | _ => none

/-- The step count of TONE and two bytes for each step (R180). -/
def parseTone (args : List Byte) : Option (Instr × List Byte) :=
  match args with
  | count :: rest =>
    match splitBytes (2 * count.toNat) rest with
    | some (steps, tail) => some (.tone (pairUp steps), tail)
    | none => none
  | _ => none

/-- The directive with this code read from its argument bytes, with the bytes after it; none when
the arguments run past the end of the bytes (R42 step 2) or the code is no directive's. -/
def parseDirective (code : Byte) (args : List Byte) : Option (Instr × List Byte) :=
  if code = 0x11 then
    match args with
    | row :: col :: tail => some (.setAt row col, tail)
    | _ => none
  else if code = 0x12 then (parseCounted args).map fun p => (.write p.1, p.2)
  else if code = 0x13 then
    match args with
    | glyph :: c1 :: c0 :: tail => some (.fill glyph (half c1 c0), tail)
    | _ => none
  else if code = 0x14 then
    match args with
    | number :: tail => some (.style number, tail)
    | _ => none
  else if code = 0x15 then
    match args with
    | c1 :: c0 :: tail => some (.erase (half c1 c0), tail)
    | _ => none
  else if code = 0x16 then some (.clearForm, args)
  else if code = 0x21 then parseField args
  else if code = 0x22 then
    match args with
    | tally :: rest => (parseCounted rest).map fun p => (.sources tally p.1, p.2)
    | _ => none
  else if code = 0x23 then
    match args with
    | tag :: tail => some (.drop tag, tail)
    | _ => none
  else if code = 0x24 then
    match args with
    | tag :: force :: rest => (parseCounted rest).map fun p => (.put tag force p.1, p.2)
    | _ => none
  else if code = 0x25 then
    match args with
    | tag :: tail => some (.unmark tag, tail)
    | _ => none
  else if code = 0x26 then
    match args with
    | row :: col :: tail => some (.cursor row col, tail)
    | _ => none
  else if code = 0x27 then
    match args with
    | tag :: tail => some (.cursorField tag, tail)
    | _ => none
  else if code = 0x31 then
    match args with
    | top :: left :: height :: width :: style :: tail =>
      some (.overlay top left height width style, tail)
    | _ => none
  else if code = 0x32 then
    match args with
    | discard :: tail => some (.restore discard, tail)
    | _ => none
  else if code = 0x41 then parseTable args
  else if code = 0x42 then parseRouteMatch args
  else if code = 0x43 then
    match args with
    | index :: target :: strip :: keep :: flags :: key :: tail =>
      some (.routeAction index target strip keep flags key, tail)
    | _ => none
  else if code = 0x51 then
    match args with
    | d1 :: d0 :: s2 :: s1 :: s0 :: m1 :: m0 :: tail =>
      some (.clock (half d1 d0) (triple s2 s1 s0) (half m1 m0), tail)
    | _ => none
  else if code = 0x52 then
    match args with
    | a1 :: a0 :: tail => some (.rate (half a1 a0), tail)
    | _ => none
  else if code = 0x53 then parseDeadline args
  else if code = 0x54 then
    match args with
    | index :: tail => some (.deadlineOff index, tail)
    | _ => none
  else if code = 0x55 then parseTone args
  else if code = 0x61 then
    match args with
    | flags :: tail => some (.options flags, tail)
    | _ => none
  else if code = 0x62 then
    match args with
    | selector :: tail => some (.read selector, tail)
    | _ => none
  else none

/-- The code byte of a directive (R180); the other commands have none. -/
def directiveCode : Instr → Option Byte
  | .setAt _ _ => some 0x11
  | .write _ => some 0x12
  | .fill _ _ => some 0x13
  | .style _ => some 0x14
  | .erase _ => some 0x15
  | .clearForm => some 0x16
  | .field _ => some 0x21
  | .sources _ _ => some 0x22
  | .drop _ => some 0x23
  | .put _ _ _ => some 0x24
  | .unmark _ => some 0x25
  | .cursor _ _ => some 0x26
  | .cursorField _ => some 0x27
  | .overlay _ _ _ _ _ => some 0x31
  | .restore _ => some 0x32
  | .table _ _ _ _ _ => some 0x41
  | .routeMatch _ _ _ _ => some 0x42
  | .routeAction _ _ _ _ _ _ => some 0x43
  | .clock _ _ _ => some 0x51
  | .rate _ => some 0x52
  | .deadline _ _ _ _ _ _ => some 0x53
  | .deadlineOff _ => some 0x54
  | .tone _ => some 0x55
  | .options _ => some 0x61
  | .read _ => some 0x62
  | .powerUp _ | .resetnAssert | .resetnRelease _ | .startEnd | .lineReset | .baseTick
  | .millisecondAdvance | .blinkFlip | .chainTimeout | .lineCharacter _ | .receiveGap
  | .frameSent | .blockTaken | .chainContinuation | .directiveUnknown _ | .readResume
  | .keyByte _ | .wandByte _ | .scanComplete | .char _ | .next | .prev | .newline | .home
  | .back | .left | .right | .up | .down | .backspace | .delete | .eraseToEnd | .eraseField
  | .insertToggle | .stepUp | .stepDown | .submit _ | .cancel | .reset | .scanPlacement
  | .toneStepEnd | .displayRowStart | .displayRowEnd | .drdyWithdrawn
  | .lineReturnsToMark => none

/-- A count byte and the counted bytes (R180). -/
def countedBytes (l : List Byte) : List Byte := BitVec.ofNat 8 l.length :: l

/-- The class part of FIELD as bytes (R180). -/
def fieldPartBytes : FieldPart → List Byte
  | .plain => []
  | .numeric scale signed flag limits step =>
    [scale, signed, flag] ++
      (match limits with
       | some (lower, upper) => quadBytes lower ++ quadBytes upper
       | none => []) ++ quadBytes step
  | .code rule => [rule]

/-- The argument bytes of a directive (R180). -/
def directiveArgs : Instr → List Byte
  | .setAt row col => [row, col]
  | .write glyphs => countedBytes glyphs
  | .fill glyph count => glyph :: halfBytes count
  | .style number => [number]
  | .erase count => halfBytes count
  | .field a =>
    [a.tag, a.length, a.kind, a.cls, a.options, a.normal, a.edit, a.error, a.next] ++
      fieldPartBytes a.part
  | .sources tally tags => tally :: countedBytes tags
  | .drop tag => [tag]
  | .put tag force glyphs => tag :: force :: countedBytes glyphs
  | .unmark tag => [tag]
  | .cursor row col => [row, col]
  | .cursorField tag => [tag]
  | .overlay top left height width style => [top, left, height, width, style]
  | .restore discard => [discard]
  | .table number plane start count entries => [number, plane, start, count] ++ entries
  | .routeMatch index lead shortest longest =>
    index :: (countedBytes lead ++ [shortest, longest])
  | .routeAction index target strip keep flags key => [index, target, strip, keep, flags, key]
  | .clock day second millisecond =>
    halfBytes day ++ tripleBytes second ++ halfBytes millisecond
  | .rate addend => halfBytes addend
  | .deadline index flags day second tag style =>
    [index, flags] ++ (match day with | some d => halfBytes d | none => []) ++
      tripleBytes second ++ [tag, style]
  | .deadlineOff index => [index]
  | .tone steps => BitVec.ofNat 8 steps.length :: unpair steps
  | .options flags => [flags]
  | .read selector => [selector]
  | _ => []

/-- The bytes of a directive in a block: its code and its arguments (R41, R180). -/
def directiveBytes (i : Instr) : List Byte :=
  match directiveCode i with
  | some code => code :: directiveArgs i
  | none => []

/-- The command that a word of the opcode table spells: none, since no row of the table has bits. -/
def decodeTableWord (_nbits _w : Nat) : Option Instr := none

end Sys2Proof
end

