-- ==== Sys2Proof/Config.lean ====
section
/-! DEFINITION. The fixed numbers of the FK340: sizes, capacities and times, each with its rule. -/

namespace Sys2Proof

/-- Columns of a row (00 section 6, R1). -/
abbrev screenCols : Nat := 96

/-- Rows of the screen (R1). -/
abbrev screenRows : Nat := 28

/-- Cells of the screen store (R1). -/
abbrev cellCount : Nat := 2688

/-- Field records of the pool (R20). -/
abbrev poolSize : Nat := 120

/-- Entries of the type-ahead queue (R88). -/
abbrev typeAheadRoom : Nat := 32

/-- Scans of the scan queue (R122). -/
abbrev scanRoom : Nat := 4

/-- Characters of a partial scan (R119). -/
abbrev scanLongest : Nat := 48

/-- Tags of the field history (R99). -/
abbrev historyRoom : Nat := 8

/-- Entries of the notice queue (R177). -/
abbrev noticeRoom : Nat := 4

/-- Receive buffers (R176). -/
abbrev bufferRoom : Nat := 2

/-- Tags run from 1 to this number (R17). -/
abbrev lastTag : Nat := 250

/-- Crystal time is counted in units of 1/256 ms: one millisecond is 256 of them (log 5). -/
abbrev unitsPerMs : Nat := 256

/-- One base tick of 1/2,048 s is 125 units of 1/256 ms (R162, log 5). -/
abbrev unitsPerTick : Nat := 125

/-- The chain timer starts at 2,000 ms (R44). -/
abbrev chainUnits : Nat := 2000 * unitsPerMs

/-- A gap inside a frame is a fault after 50 ms (R175). -/
abbrev gapUnits : Nat := 50 * unitsPerMs

/-- The received line makes a line reset after 250 ms at space (R179). -/
abbrev spaceUnits : Nat := 250 * unitsPerMs

/-- The accept pulse on WACK is 2 ms wide (00 section 9). -/
abbrev ackUnits : Nat := 2 * unitsPerMs

/-- Base ticks of one blink phase (R6). -/
abbrev blinkPeriod : Nat := 1024

/-- The accumulator carries a millisecond at this sum (R162). -/
abbrev accumulatorSpan : Nat := 65536

/-- Days count from 0 to one less than this number (R161). -/
abbrev daySpan : Nat := 65536

/-- Seconds of a day (R161). -/
abbrev secondSpan : Nat := 86400

/-- Milliseconds of a second (R161). -/
abbrev millisecondSpan : Nat := 1000

/-- The nominal addend (R161). -/
abbrev nominalAddend : Nat := 32000

/-- The shortest and the longest payload of a frame from the host (R174). -/
abbrev payloadShortest : Nat := 3
abbrev payloadLongest : Nat := 12288

end Sys2Proof
end

