-- ==== Sys2Proof/Machine/Types.lean ====
section
/-! DEFINITION. The data types of the FK340's state, unit by unit. Plain data throughout. -/

namespace Sys2Proof.Machine

open Sys2Proof

/-! Screen store and styles (chapter 1) -/

/-- One cell of the screen store: a glyph and a style number (R1). -/
structure Cell where
  glyph : Byte
  style : Nat
  deriving DecidableEq, Repr

/-- Cells by position: positions strictly rising, no entry blank (log 23). -/
abbrev Store := List (Nat × Cell)

/-- The intensity of a style (R4). -/
inductive Intensity where
  | normal
  | bright
  | dim
  deriving DecidableEq, Repr

/-- An entry of the style table (R4). -/
structure Style where
  intensity : Intensity
  underline : Bool
  reverse : Bool
  blink : Bool
  deriving DecidableEq, Repr

/-- The blink phase (R6). -/
inductive BlinkPhase where
  | shown
  | blanked
  deriving DecidableEq, Repr

/-- What goes out for one cell: the glyph on DD0 to DD7 and the code on DATTR0 to DATTR3 (R11, R13). -/
structure SentCell where
  glyph : Byte
  code : BitVec 4
  deriving DecidableEq, Repr

/-- The display port (R6, R11). `column` is the next column of the row in progress; `sent` holds the
cells sent since the latest DROW (log 15); `ready` is the level of DRDY as last told (log 20). -/
structure Display where
  blinkCount : Nat
  phase : BlinkPhase
  row : Nat
  column : Option Nat
  sent : List SentCell
  ready : Bool
  deriving DecidableEq, Repr

/-! Fields (chapter 2) -/

/-- The kind of a field (R17). -/
inductive Kind where
  | entry
  | fixed
  | live
  | tally
  | clock
  deriving DecidableEq, Repr

/-- The check rule of a CODE field (R17). -/
inductive CheckRule where
  | none
  | mod10w31
  | mod11
  deriving DecidableEq, Repr

/-- The numeric part of a field, in units of its scale (R17, R65). -/
structure NumPart where
  scale : Nat
  signed : Bool
  lower : Int
  upper : Int
  step : Int
  deriving DecidableEq, Repr

/-- The class of a field with the part that the class brings (R17); a CLOCK field has none. -/
inductive FieldClass where
  | none
  | alpha
  | numeric (n : NumPart)
  | code (rule : CheckRule)
  deriving DecidableEq, Repr

/-- The options of a field (R17). -/
structure FieldOptions where
  mandatory : Bool
  fillWhole : Bool
  autoAdvance : Bool
  hidden : Bool
  fold : Bool
  keepInReply : Bool
  normalise : Bool
  deriving DecidableEq, Repr

/-- The kinds of an error mark (R17, R34). -/
inductive ErrorKind where
  | format
  | range
  | check
  | incomplete
  | missing
  deriving DecidableEq, Repr

/-- A set alert mark: its style and the index of the deadline that set it (R35). -/
structure Alert where
  style : Nat
  index : Nat
  deriving DecidableEq, Repr

/-- A field record (R17). An alert or error mark that is clear, a next tag and a source list that
are absent, are `none`. -/
structure Field where
  tag : Nat
  start : Nat
  length : Nat
  kind : Kind
  cls : FieldClass
  opts : FieldOptions
  normal : Nat
  edit : Nat
  error : Nat
  next : Option Nat
  sources : Option (List Nat)
  modified : Bool
  collision : Bool
  errorMark : Option ErrorKind
  alert : Option Alert
  incomplete : Bool
  saturated : Bool
  deriving DecidableEq, Repr

/-! Overlays (chapter 8) -/

/-- The window of an open overlay (R134). -/
structure Window where
  top : Nat
  left : Nat
  height : Nat
  width : Nat
  deriving DecidableEq, Repr

/-- The window and the save area of an open overlay (R134). -/
structure Overlay where
  window : Window
  savedCells : Store
  savedCursor : Nat
  savedHistory : List Nat
  suspended : List Field
  deriving DecidableEq, Repr

/-! The form: the screen, the fields over it, the overlay and the operator's place in it -/

/-- The screen store, the field table, the overlay (`none` is state NONE) and the Entry Engine's
state: cursor, insert mode, visit flag and history, newest tag first (R99). -/
structure Form where
  cells : Store
  active : List Field
  overlay : Option Overlay
  cursor : Nat
  insert : Bool
  visit : Bool
  history : List Nat
  deriving DecidableEq, Repr

/-! Keys, scans and the entry state (chapters 5 and 7) -/

/-- An action of the key translation table (R85). -/
inductive Action where
  | none
  | char (glyph : Byte)
  | next
  | prev
  | newline
  | home
  | back
  | left
  | right
  | up
  | down
  | backspace
  | delete
  | eraseToEnd
  | eraseField
  | insertToggle
  | stepUp
  | stepDown
  | submit (key : Byte)
  | cancel
  | reset
  deriving DecidableEq, Repr

/-- An entry of the character class table (R87). -/
structure CharClass where
  printable : Bool
  digit : Bool
  letter : Bool
  numpunct : Bool
  fold : Byte
  deriving DecidableEq, Repr

/-- An entry of the type-ahead queue (R88). -/
inductive QueueEntry where
  | action (a : Action)
  | marker
  deriving DecidableEq, Repr

/-- The return state (R90). -/
inductive ReturnState where
  | openEntry
  | await
  | fault
  deriving DecidableEq, Repr

/-- The entry state, with the return state in HELD (R90). -/
inductive EntryState where
  | openEntry
  | held (back : ReturnState)
  | await
  | fault
  deriving DecidableEq, Repr

/-- The partial scan of the scan assembler (R119). -/
structure PartialScan where
  chars : List Byte
  bad : Bool
  overlong : Bool
  deriving DecidableEq, Repr

/-- The Key Unit, the scan assembler and the scan queue. `ackLeft` is the time left of the accept
pulse on WACK (log 14). -/
structure Input where
  shift : Bool
  alt : Bool
  entry : EntryState
  typeAhead : List QueueEntry
  scans : List (List Byte)
  scan : PartialScan
  ackLeft : Nat
  deriving DecidableEq, Repr

/-! The host-loadable tables and the options -/

/-- The keep mode of a routing entry (R123). -/
inductive KeepMode where
  | head
  | tail
  deriving DecidableEq, Repr

/-- The first half of a routing entry, which recognises a label (R123). -/
structure RouteMatch where
  lead : List Byte
  shortest : Nat
  longest : Nat
  deriving DecidableEq, Repr

/-- The second half of a routing entry, which places a label (R123). -/
structure RoutePlace where
  target : Nat
  strip : Nat
  keep : KeepMode
  advance : Bool
  key : Byte
  enable : Bool
  deriving DecidableEq, Repr

/-- A routing entry as committed, and its staging slot (R123). -/
structure Route where
  first : RouteMatch
  second : RoutePlace
  staged : Option RouteMatch
  deriving DecidableEq, Repr

/-- The options (R59). -/
structure Options where
  typeAhead : Bool
  softFaults : Bool
  keyClick : Bool
  insertAtEntry : Bool
  deriving DecidableEq, Repr

/-- The tables that the host loads: 16 styles, 3 × 128 key entries plane after plane, 256 character
classes, 16 routing entries; and the options. -/
structure Tables where
  styles : List Style
  keys : List Action
  classes : List CharClass
  routes : List Route
  options : Options
  deriving DecidableEq, Repr

/-! The Stream Unit (chapter 3) -/

/-- The selectors of READ (R60). -/
inductive Selector where
  | modified
  | all
  | screen
  | status
  deriving DecidableEq, Repr

/-- The stream state. In APPLYING: the offset reached in the block in hand, and the selector of the
READ at which application is paused. In CHAINED: the time left on the chain timer (R40). -/
inductive Phase where
  | idle
  | applying (offset : Nat) (paused : Option Selector)
  | chained (left : Nat)
  deriving DecidableEq, Repr

/-- The Stream Unit (R40). The block in hand is the oldest receive buffer. -/
structure Stream where
  phase : Phase
  writePos : Nat
  style : Nat
  chainSeq : Byte
  lastSeq : Byte
  deriving DecidableEq, Repr

/-- The error kinds a directive can be refused with (R180). -/
inductive DirError where
  | unknown
  | length
  | range
  | format
  | tag
  | tableFull
  | noField
  | kind
  | modified
  | window
  | overlayBusy
  | noOverlay
  deriving DecidableEq, Repr

/-! The Line Unit (chapter 11) -/

/-- The cause of a start (R159). -/
inductive StartCause where
  | power
  | pin
  | line
  deriving DecidableEq, Repr

/-- An entry of the notice queue (R177). -/
inductive Notice where
  | exception (sequence : Byte) (offset : Nat) (error : DirError)
  | start (cause : StartCause)
  | frame
  | overrun
  | chainTimeout (sequence : Byte)
  | deadline (index : Nat)
  deriving DecidableEq, Repr

/-- The receiver with the bytes it keeps (R175). -/
inductive Receiver where
  | hunt
  | length (first : Option Byte)
  | payload (length : Nat) (bytes : List Byte)
  | crc (payload : List Byte) (first : Option Byte)
  deriving DecidableEq, Repr

/-- The frame being sent, and whether it is the frame of the reply buffer's reply (R177). -/
structure Sending where
  isReply : Bool
  frame : List Byte
  deriving DecidableEq, Repr

/-- The Line Unit. `atSpace` holds from a line reset until the received line is back at mark, and
`spaceLeft` is what is left of the 250 ms at space that the line reset detector times (R179, log 6);
`gapLeft` is what is left of the 50 ms of a gap (R175). `buffers` holds the payloads of the receive buffers in the order their frames were
completed (R176, log 18); `reply` the built reply when the reply buffer is BUSY (R147). -/
structure Line where
  baud : Nat
  atSpace : Bool
  spaceLeft : Nat
  receiver : Receiver
  gapLeft : Nat
  buffers : List (List Byte)
  reply : Option (List Byte)
  sending : Option Sending
  notices : List Notice
  deriving DecidableEq, Repr

/-! Clock and tones (chapter 10) -/

/-- The state of a deadline entry (R166). -/
inductive DeadlineState where
  | off
  | armed
  | passed
  deriving DecidableEq, Repr

/-- A deadline entry; it is dated when it has a day, and daily otherwise (R166). -/
structure Deadline where
  state : DeadlineState
  day : Option Nat
  second : Nat
  tag : Nat
  style : Nat
  notify : Bool
  deriving DecidableEq, Repr

/-- The Clock Unit (R161, R166). -/
structure Clock where
  day : Nat
  second : Nat
  millisecond : Nat
  accumulator : Nat
  addend : Nat
  deadlines : List Deadline
  deriving DecidableEq, Repr

/-- The pitch of a tone step (R170). -/
inductive Pitch where
  | silence
  | low
  | high
  deriving DecidableEq, Repr

/-- A step of a tone pattern, with its time in units of 1/256 ms (R170). -/
structure ToneStep where
  pitch : Pitch
  time : Nat
  deriving DecidableEq, Repr

/-- The tone patterns (R170). -/
inductive Pattern where
  | deadline
  | refuse
  | overflow
  | host (steps : List ToneStep)
  | good
  | click
  deriving DecidableEq, Repr

/-- The playing pattern, its steps from the one reached on, and the time left in that one (R171). -/
structure Playing where
  pattern : Pattern
  steps : List ToneStep
  left : Nat
  deriving DecidableEq, Repr

/-- The Tone Unit (R171). -/
structure Tone where
  playing : Option Playing
  pending : Option Pattern
  deriving DecidableEq, Repr

/-! Starts (chapter 11) -/

/-- The RESETN level, the start under way with the cause it will report, and the start cause (R178). -/
structure Start where
  resetLow : Bool
  running : Option StartCause
  cause : StartCause
  deriving DecidableEq, Repr

end Sys2Proof.Machine
end

