-- ==== Sys2Proof/Machine/Operands.lean ====
section
/-! DEFINITION. The operand forms of the directives: the codes, flag bytes and table entries of R180,
and the argument checks of FIELD (R22, R64, R65). -/

namespace Sys2Proof.Machine

open Sys2Proof

/-- The kind codes (R180). -/
def kindOf (b : Byte) : Option Kind :=
  if b = 1 then some .entry else if b = 2 then some .fixed else if b = 3 then some .live
  else if b = 4 then some .tally else if b = 5 then some .clock else none

/-- The check rule codes (R180). -/
def checkRuleOf (b : Byte) : Option CheckRule :=
  if b = 0 then some .none else if b = 1 then some .mod10w31 else if b = 2 then some .mod11
  else none

/-- The options byte of FIELD (R180). -/
def fieldOptionsOf (b : Byte) : FieldOptions :=
  { mandatory := b.getLsbD 0
    fillWhole := b.getLsbD 1
    autoAdvance := b.getLsbD 2
    hidden := b.getLsbD 3
    fold := b.getLsbD 4
    keepInReply := b.getLsbD 5
    normalise := b.getLsbD 6 }

/-- The keep mode codes (R180). -/
def keepModeOf (b : Byte) : Option KeepMode :=
  if b = 0 then some .head else if b = 1 then some .tail else none

/-- The pitch codes (R180). -/
def pitchOf (b : Byte) : Option Pitch :=
  if b = 0 then some .silence else if b = 1 then some .low else if b = 2 then some .high else none

/-- The READ selectors (R180). -/
def selectorOf (b : Byte) : Option Selector :=
  if b = 1 then some .modified else if b = 2 then some .all else if b = 3 then some .screen
  else if b = 4 then some .status else none

/-- The flags byte of OPTIONS (R180). -/
def optionsOf (b : Byte) : Options :=
  { typeAhead := b.getLsbD 0
    softFaults := b.getLsbD 1
    keyClick := b.getLsbD 2
    insertAtEntry := b.getLsbD 3 }

/-- A style entry; none when its intensity code is 3 (R180, R56). -/
def styleOf (b : Byte) : Option Style :=
  let flags (i : Intensity) : Style :=
    { intensity := i, underline := b.getLsbD 2, reverse := b.getLsbD 3, blink := b.getLsbD 4 }
  match b.getLsbD 1, b.getLsbD 0 with
  | false, false => some (flags .normal)
  | false, true => some (flags .bright)
  | true, false => some (flags .dim)
  | true, true => none

/-- A key entry; none when its action code names no action, or when it is a SUBMIT whose key number
is 0 or over 24 (R180, R56). -/
def actionOf (code parameter : Byte) : Option Action :=
  match code.toNat with
  | 0x00 => some .none
  | 0x01 => some (.char parameter)
  | 0x02 => some .next
  | 0x03 => some .prev
  | 0x04 => some .newline
  | 0x05 => some .home
  | 0x06 => some .back
  | 0x07 => some .left
  | 0x08 => some .right
  | 0x09 => some .up
  | 0x0A => some .down
  | 0x0B => some .backspace
  | 0x0C => some .delete
  | 0x0D => some .eraseToEnd
  | 0x0E => some .eraseField
  | 0x0F => some .insertToggle
  | 0x10 => some .stepUp
  | 0x11 => some .stepDown
  | 0x12 => if parameter.toNat = 0 ∨ 24 < parameter.toNat then none else some (.submit parameter)
  | 0x13 => some .cancel
  | 0x14 => some .reset
  | _ => none

/-- A class entry; every value is accepted (R180, R56). -/
def charClassOf (set fold : Byte) : CharClass :=
  { printable := set.getLsbD 0
    digit := set.getLsbD 1
    letter := set.getLsbD 2
    numpunct := set.getLsbD 3
    fold := fold }

/-- All results, or none when one of them is missing. -/
def allSome {α : Type} : List (Option α) → Option (List α)
  | [] => some []
  | none :: _ => none
  | some a :: rest => (allSome rest).map (a :: ·)

/-- The steps of a TONE directive with durations of 10 ms units, checked pitch codes first and
durations after (R171). -/
def toneStepsOf (steps : List (Byte × Byte)) : Option (List ToneStep) :=
  match allSome (steps.map fun p => pitchOf p.1) with
  | none => none
  | some pitches =>
    if steps.any fun p => p.2 = 0 then none
    else some ((pitches.zip steps).map fun q =>
      { pitch := q.1, time := q.2.2.toNat * 10 * unitsPerMs })

/-- The digit capacity d = L − (1 if signed) − (1 if s > 0) (R64). -/
def digitCapacity (length : Nat) (signed : Bool) (scale : Nat) : Int :=
  (length : Int) - (if signed then 1 else 0) - (if 0 < scale then 1 else 0)

/-- The largest magnitude M = 10^d − 1 (R64). -/
def largestMagnitude (length : Nat) (signed : Bool) (scale : Nat) : Nat :=
  10 ^ (digitCapacity length signed scale).toNat - 1

/-- The checks of limits and step, each failure refused with RANGE (R65). -/
def checkLimits (m : Int) (n : NumPart) : Except DirError NumPart :=
  if ¬(-m ≤ n.lower ∧ n.lower ≤ n.upper ∧ n.upper ≤ m) then .error .range
  else if n.signed = false ∧ n.lower < 0 then .error .range
  else if n.step < 1 ∨ m < n.step then .error .range
  else .ok n

/-- The numeric part of a FIELD directive (R22 step 4, R64, R65, R180). -/
def numericPart (kind : Kind) (length : Nat) (scale signed limitsFlag : Byte)
    (limits : Option (Quad × Quad)) (step : Quad) : Except DirError NumPart :=
  let s := scale.toNat
  let sg : Bool := signed = 1
  let d := digitCapacity length sg s
  let m : Int := largestMagnitude length sg s
  if 1 < signed.toNat ∨ 1 < limitsFlag.toNat then .error .format
  else if 3 < s then .error .format
  else if d < 1 ∨ 9 < d ∨ d < s + 1 then .error .format
  else
    match limits with
    | some (lower, upper) =>
      checkLimits m { scale := s, signed := sg, lower := lower.toInt, upper := upper.toInt,
                      step := step.toInt }
    | none =>
      if kind = .tally then
        checkLimits m { scale := s, signed := sg, lower := if sg then -m else 0, upper := m,
                        step := step.toInt }
      else .error .format

/-- The kind and class checks of FIELD, each refused with FORMAT (R22 step 3). -/
def kindClassAgree (kind : Kind) (length cls : Nat) (part : FieldPart) : Bool :=
  cls ≤ 3 &&
  (match kind with
   | .tally => cls == 2
   | .clock => cls == 0 && (length == 5 || length == 8)
   | .entry | .fixed | .live => cls != 0) &&
  (match part with
   | .code rule => (checkRuleOf rule).isSome
   | _ => true)

/-- The class with its part (R22 steps 3 and 4). -/
def classOf (kind : Kind) (length : Nat) (cls : Byte) (part : FieldPart) :
    Except DirError FieldClass :=
  match part with
  | .numeric scale signed flag limits step =>
    (numericPart kind length scale signed flag limits step).map FieldClass.numeric
  | .code rule => .ok (.code ((checkRuleOf rule).getD .none))
  | .plain => .ok (if cls = 1 then .alpha else .none)

/-- The record that a FIELD directive asks for at a write position, or the error of the first check
of R22 that fails, but for the window of step 7. Its marks are clear and it has no source list. -/
def fieldRecord (a : FieldArgs) (writePos : Nat) : Except DirError Field :=
  let length := a.length.toNat
  if a.tag = 0 ∨ lastTag < a.tag.toNat then .error .tag
  else if length = 0 ∨ screenCols < length ∨ screenCols < writePos % screenCols + length then
    .error .range
  else
    match kindOf a.kind with
    | none => .error .format
    | some kind =>
      if ¬ kindClassAgree kind length a.cls.toNat a.part then .error .format
      else
        match classOf kind length a.cls a.part with
        | .error e => .error e
        | .ok cls =>
          if 15 < a.normal.toNat ∨ 15 < a.edit.toNat ∨ 15 < a.error.toNat then .error .range
          else if lastTag < a.next.toNat then .error .tag
          else
            .ok { tag := a.tag.toNat, start := writePos, length := length, kind := kind,
                  cls := cls, opts := fieldOptionsOf a.options, normal := a.normal.toNat,
                  edit := a.edit.toNat, error := a.error.toNat,
                  next := if a.next = 0 then none else some a.next.toNat,
                  sources := none, modified := false, collision := false, errorMark := none,
                  alert := none, incomplete := false, saturated := false }

end Sys2Proof.Machine
end

