-- ==== Sys2Proof/Machine/Defaults.lean ====
section
/-! DEFINITION. Power-up values: the tables of R4, R86, R87 and R123 and the state of every unit
after power-up and pin reset. -/

namespace Sys2Proof.Machine

open Sys2Proof

/-- A plain style of an intensity (R4). -/
def plainStyle (i : Intensity) : Style :=
  { intensity := i, underline := false, reverse := false, blink := false }

/-- Style 0, fixed at all times (R4). -/
def styleZero : Style := plainStyle .normal

/-- The style table after power-up and pin reset (R4). -/
def defaultStyles : List Style :=
  [ styleZero,
    plainStyle .bright,
    plainStyle .dim,
    { plainStyle .normal with underline := true },
    { plainStyle .normal with reverse := true },
    { plainStyle .bright with reverse := true },
    { plainStyle .bright with blink := true },
    { plainStyle .normal with underline := true, blink := true } ] ++
  List.replicate 8 styleZero

/-- Plane 0 of the key translation table (R86). -/
def defaultKeyPlain (code : Nat) : Action :=
  match code with
  | 0x01 => .next
  | 0x02 => .prev
  | 0x03 => .left
  | 0x04 => .right
  | 0x05 => .up
  | 0x06 => .down
  | 0x07 => .home
  | 0x08 => .backspace
  | 0x09 => .next
  | 0x0A => .newline
  | 0x0B => .back
  | 0x0C => .eraseToEnd
  | 0x0D => .submit 1
  | 0x0E => .eraseField
  | 0x0F => .delete
  | 0x10 => .insertToggle
  | 0x11 => .stepUp
  | 0x12 => .stepDown
  | 0x13 => .reset
  | 0x14 => .cancel
  | n => if 0x20 ≤ n ∧ n ≤ 0x7B then .char (BitVec.ofNat 8 n) else .none

/-- Plane 1 of the key translation table: plane 0 with capital letters (R86). -/
def defaultKeyShift (code : Nat) : Action :=
  if 0x61 ≤ code ∧ code ≤ 0x7A then .char (BitVec.ofNat 8 (code - 0x20))
  else defaultKeyPlain code

/-- Plane 2 of the key translation table: SUBMIT 1 to 24 at codes 0x41 to 0x58 (R86). -/
def defaultKeyAlt (code : Nat) : Action :=
  if 0x41 ≤ code ∧ code ≤ 0x58 then .submit (BitVec.ofNat 8 (code - 0x40)) else .none

/-- The key translation table after power-up and pin reset, plane after plane (R86). -/
def defaultKeys : List Action :=
  (List.range 128).map defaultKeyPlain ++ (List.range 128).map defaultKeyShift ++
    (List.range 128).map defaultKeyAlt

/-- The character class of one glyph after power-up and pin reset (R87). -/
def defaultClass (glyph : Nat) : CharClass :=
  { printable := 0x20 ≤ glyph && glyph ≤ 0x7E
    digit := 0x30 ≤ glyph && glyph ≤ 0x39
    letter := (0x41 ≤ glyph && glyph ≤ 0x5A) || (0x61 ≤ glyph && glyph ≤ 0x7A)
    numpunct := glyph == 0x20 || glyph == 0x2D || glyph == 0x2E
    fold :=
      if 0x61 ≤ glyph ∧ glyph ≤ 0x7A then BitVec.ofNat 8 (glyph - 0x20)
      else BitVec.ofNat 8 glyph }

/-- The character class table after power-up and pin reset (R87). -/
def defaultClasses : List CharClass := (List.range 256).map defaultClass

/-- A routing entry after power-up and pin reset, its staging slot empty (R123). -/
def defaultRoute : Route :=
  { first := { lead := [], shortest := 1, longest := 48 }
    second :=
      { target := 0, strip := 0, keep := .head, advance := false, key := 0, enable := false }
    staged := none }

/-- The options after power-up and pin reset (R59). -/
def defaultOptions : Options :=
  { typeAhead := true, softFaults := false, keyClick := true, insertAtEntry := false }

/-- The tables after power-up and pin reset (R4, R59, R86, R87, R123). -/
def tablesReset : Tables :=
  { styles := defaultStyles
    keys := defaultKeys
    classes := defaultClasses
    routes := List.replicate 16 defaultRoute
    options := defaultOptions }

/-- The form after every reset: every cell blank, every record free, no overlay, and the Entry Engine
as R99 gives (R3, R20, R99, R134). -/
def formReset : Form :=
  { cells := [], active := [], overlay := none, cursor := 0, insert := false, visit := false,
    history := [] }

/-- An empty partial scan (R119). -/
def emptyScan : PartialScan := { chars := [], bad := false, overlong := false }

/-- The Key Unit and the wand side after power-up and pin reset (R83, R88, R90, R119, R122). -/
def inputReset : Input :=
  { shift := false, alt := false, entry := .await, typeAhead := [], scans := [],
    scan := emptyScan, ackLeft := 0 }

/-- The Stream Unit after power-up and pin reset (R40; the chain sequence by log 10). -/
def streamReset : Stream :=
  { phase := .idle, writePos := 0, style := 0, chainSeq := 0, lastSeq := 0 }

/-- The rate in baud that the straps LRS1, LRS0 select (R173). -/
def strapBaud (straps : BitVec 2) : Nat :=
  if straps = 0 then 19200 else if straps = 1 then 38400 else if straps = 2 then 57600
  else 115200

/-- The Line Unit after power-up and pin reset, with the straps sampled (R147, R173, R175 to R177); the
line reset detector has the whole 250 ms before it (R179). -/
def lineUnitReset (straps : BitVec 2) : Line :=
  { baud := strapBaud straps, atSpace := false, spaceLeft := spaceUnits, receiver := .hunt,
    gapLeft := 0, buffers := [], reply := none, sending := none, notices := [] }

/-- A deadline entry after power-up and pin reset (R166). -/
def defaultDeadline : Deadline :=
  { state := .off, day := none, second := 0, tag := 0, style := 0, notify := false }

/-- The Clock Unit after power-up and pin reset (R161, R166). -/
def clockReset : Clock :=
  { day := 0, second := 0, millisecond := 0, accumulator := 0, addend := nominalAddend,
    deadlines := List.replicate 4 defaultDeadline }

/-- The Tone Unit after every reset (R171). -/
def toneReset : Tone := { playing := none, pending := none }

/-- The display port after power-up and pin reset (R6, R11; logs 15 and 20). -/
def displayReset : Display :=
  { blinkCount := 0, phase := .shown, row := 0, column := none, sent := [], ready := false }

end Sys2Proof.Machine
end

