-- ==== Sys2Proof/Machine/State.lean ====
section
/-! DEFINITION. The whole state of the FK340 as plain data, the reasons a step can stop, and the
state after reset. -/

namespace Sys2Proof.Machine

open Sys2Proof

/-- The state of the part, unit by unit, and the queue of the commands that wait, oldest first. -/
structure State where
  form : Form
  tables : Tables
  input : Input
  stream : Stream
  line : Line
  clock : Clock
  tone : Tone
  display : Display
  start : Start
  pending : List Instr
  deriving DecidableEq, Repr

/-- The faults of a step. The FK340 has none: its errors are notices, marks and entry states, which
are effects on the state, so this type is empty. -/
inductive Fault
  deriving DecidableEq, Repr

/-- The refusals of a step. -/
inductive Refusal where
  /-- Raised by an arm of `exec` for a row that has no meaning yet (safe). No arm raises it. -/
  | notModelled (mnemonic : String)
  deriving DecidableEq, Repr

/-- The state right after power-up, with power good and the straps at these levels: every piece of
state at its power-up value and start under way, which will report cause POWER (R178, log 3). -/
def State.powerUp (straps : BitVec 2) (pending : List Instr) : State :=
  { form := formReset
    tables := tablesReset
    input := inputReset
    stream := streamReset
    line := lineUnitReset straps
    clock := clockReset
    tone := toneReset
    display := displayReset
    start := { resetLow := false, running := some .power, cause := .power }
    pending := pending }

/-- The machine right after reset: power has become good, start is under way, the straps are at 00
(logs 3 and 12) and no command waits. -/
def State.reset : State := State.powerUp 0 []

end Sys2Proof.Machine
end

