-- ==== Sys2Proof/Machine/Ops.lean ====
section
/-! DEFINITION. The named operations over the state that the meanings share: the screen store, the
field table and the content of a field, the notice queue and the transmitter, the tone line, and the
endings that change the entry state. -/

namespace Sys2Proof.Machine

open Sys2Proof

/-! ## The screen store (R1, R2, R3) -/

/-- The cell that an unlisted position reads as: glyph 0, style 0 (R3). -/
def blankCell : Cell := { glyph := 0, style := 0 }

/-- The cell at a position. -/
def readCell : Store → Nat → Cell
  | [], _ => blankCell
  | (q, c) :: rest, p => if p = q then c else readCell rest p

/-- The store with one cell written, in canonical form again (R1). -/
def writeCell : Store → Nat → Cell → Store
  | [], p, c => if c = blankCell then [] else [(p, c)]
  | (q, d) :: rest, p, c =>
    if p < q then (if c = blankCell then (q, d) :: rest else (p, c) :: (q, d) :: rest)
    else if p = q then (if c = blankCell then rest else (p, c) :: rest)
    else (q, d) :: writeCell rest p c

/-- The canonical form of a store: positions strictly rising, no blank cell listed. -/
def storeWf : Store → Bool
  | [] => true
  | (p, c) :: rest => c ≠ blankCell && rest.all (fun e => p < e.1) && storeWf rest

/-- The position after a position (R2). -/
def nextPosition (p : Nat) : Nat := (p + 1) % cellCount

/-- The position before a position (R2, R104). -/
def previousPosition (p : Nat) : Nat := (p + (cellCount - 1)) % cellCount

/-- The null glyph and the space (00 section 6). -/
def nullGlyph : Byte := 0x00
def spaceGlyph : Byte := 0x20

/-! ## Extents and windows (R17, R134) -/

/-- The position lies in the extent of the field (R17). -/
def Field.covers (f : Field) (p : Nat) : Bool := f.start ≤ p && p < f.start + f.length

/-- The extent of a field, first position first (R17). -/
def Field.positions (f : Field) : List Nat := (List.range f.length).map (f.start + ·)

/-- Two fields share at least one position (R23). -/
def Field.sharesCell (f g : Field) : Bool := f.positions.any g.covers

/-- The position lies in the window (R134). -/
def Window.contains (w : Window) (p : Nat) : Bool :=
  (w.top ≤ p / screenCols && p / screenCols < w.top + w.height) &&
  (w.left ≤ p % screenCols && p % screenCols < w.left + w.width)

/-- The positions of the window, in position order (R134). -/
def Window.positions (w : Window) : List Nat :=
  (List.range w.height).flatMap fun i =>
    (List.range w.width).map fun j => (w.top + i) * screenCols + (w.left + j)

/-- The window's top-left cell (R134). -/
def Window.corner (w : Window) : Nat := w.top * screenCols + w.left

/-- The extent of the field lies wholly inside the window. -/
def Window.holds (w : Window) (f : Field) : Bool := f.positions.all w.contains

/-- The extent of the field shares a position with the window. -/
def Window.touches (w : Window) (f : Field) : Bool := f.positions.any w.contains

/-! ## The field table (R17 to R21) -/

/-- The window of the open overlay, if one is open. -/
def Form.window (fm : Form) : Option Window := fm.overlay.map (·.window)

/-- The suspended records (R134). -/
def Form.suspended (fm : Form) : List Field :=
  match fm.overlay with
  | some o => o.suspended
  | none => []

/-- The position lies inside the window of an open overlay. -/
def Form.inWindow (fm : Form) (p : Nat) : Bool :=
  match fm.overlay with
  | some o => o.window.contains p
  | none => false

/-- The active field that contains a position (R21). -/
def Form.fieldAt (fm : Form) (p : Nat) : Option Field := fm.active.find? (·.covers p)

/-- The suspended record that covers a position outside the window (R7, R38). -/
def Form.suspendedAt (fm : Form) (p : Nat) : Option Field :=
  if fm.inWindow p then none else fm.suspended.find? (·.covers p)

/-- The current field (R100). -/
def Form.current (fm : Form) : Option Field := fm.fieldAt fm.cursor

/-- The active record holding a tag. -/
def Form.activeTag (fm : Form) (t : Nat) : Option Field := fm.active.find? (·.tag == t)

/-- The suspended record holding a tag. -/
def Form.suspendedTag (fm : Form) (t : Nat) : Option Field := fm.suspended.find? (·.tag == t)

/-- The record holding a tag, and whether it is suspended (R20). -/
def Form.record (fm : Form) (t : Nat) : Option (Field × Bool) :=
  match fm.activeTag t with
  | some f => some (f, false)
  | none => (fm.suspendedTag t).map fun f => (f, true)

/-- Every suspended record changed by a function. -/
def Form.mapSuspended (fm : Form) (g : Field → Field) : Form :=
  { fm with overlay := fm.overlay.map fun o => { o with suspended := o.suspended.map g } }

/-- Every record, active and suspended, changed by a function. -/
def Form.mapRecords (fm : Form) (g : Field → Field) : Form :=
  { fm with active := fm.active.map g }.mapSuspended g

/-- The record holding a tag changed by a function. -/
def Form.mapTag (fm : Form) (t : Nat) (g : Field → Field) : Form :=
  fm.mapRecords fun f => if f.tag = t then g f else f

/-- The fields an operator move may land on: active ENTRY fields, wholly inside an open window, in
position order (R106). They are the sweep fields as well (R149). -/
def Form.reachable (fm : Form) (f : Field) : Bool :=
  match fm.overlay with
  | some o => o.window.holds f
  | none => true

def Form.eligible (fm : Form) : List Field :=
  fm.active.filter fun f => f.kind = .entry && fm.reachable f

/-- A record put into its place by start position (R20). -/
def insertByStart (f : Field) : List Field → List Field
  | [] => [f]
  | g :: rest => if f.start < g.start then f :: g :: rest else g :: insertByStart f rest

/-! ## The content of a field (R18, R19) -/

/-- The cell that holds a field's glyph at a position: for a suspended field and a position inside
the window it is the saved cell, otherwise the screen cell (R18). -/
def Form.cellOf (fm : Form) (suspended : Bool) (p : Nat) : Cell :=
  match suspended, fm.overlay with
  | true, some o => if o.window.contains p then readCell o.savedCells p else readCell fm.cells p
  | _, _ => readCell fm.cells p

/-- A screen cell written (R1). -/
def Form.setScreen (fm : Form) (p : Nat) (c : Cell) : Form :=
  { fm with cells := writeCell fm.cells p c }

/-- The cell of `Form.cellOf` written (R18, R30). -/
def Form.setCellOf (fm : Form) (suspended : Bool) (p : Nat) (c : Cell) : Form :=
  match suspended, fm.overlay with
  | true, some o =>
    if o.window.contains p then
      { fm with overlay := some { o with savedCells := writeCell o.savedCells p c } }
    else fm.setScreen p c
  | _, _ => fm.setScreen p c

/-- The content of a field: its glyphs, first cell first (R18). -/
def Form.content (fm : Form) (suspended : Bool) (f : Field) : List Byte :=
  f.positions.map fun p => (fm.cellOf suspended p).glyph

/-- Glyphs written from a position on, one to a cell, in a style. -/
def Form.writeGlyphs (fm : Form) (suspended : Bool) (style : Nat) (p : Nat) :
    List Byte → Form
  | [] => fm
  | g :: rest =>
    (fm.setCellOf suspended p { glyph := g, style := style }).writeGlyphs suspended style (p + 1)
      rest

/-- The part's own write of a field's cells from an offset on, in the field's normal style and
within the extent (R19). -/
def Form.writeFrom (fm : Form) (suspended : Bool) (f : Field) (offset : Nat) (glyphs : List Byte) :
    Form :=
  fm.writeGlyphs suspended f.normal (f.start + offset) (glyphs.take (f.length - offset))

/-- The part's own write of a field's whole content (R19). -/
def Form.writeContent (fm : Form) (suspended : Bool) (f : Field) (glyphs : List Byte) : Form :=
  fm.writeFrom suspended f 0 glyphs

/-! ## Host cell writes (R37, R38) -/

/-- A host write of one cell: held off by a modified field, whose collision mark is then set, or
done. The tag answered is that of the field whose cell was written (R37, R38, R52). -/
def Form.hostCell (fm : Form) (p : Nat) (c : Cell) : Form × Option Nat :=
  let owner : Option Field :=
    match fm.fieldAt p with
    | some f => some f
    | none => fm.suspendedAt p
  match owner with
  | some f =>
    if f.modified then (fm.mapTag f.tag fun g => { g with collision := true }, none)
    else (fm.setScreen p c, some f.tag)
  | none => (fm.setScreen p c, none)

/-- A run of host cell writes from a position on: the form, the position after the run and the tags
of the fields written (R37, R49). -/
def Form.hostRun (fm : Form) (p : Nat) : List Cell → Form × Nat × List Nat
  | [] => (fm, p, [])
  | c :: rest =>
    let one := fm.hostCell p c
    let more := one.1.hostRun (nextPosition p) rest
    (more.1, more.2.1, one.2.toList ++ more.2.2)

/-! ## Frames, notices and the transmitter (R174, R177, R180) -/

/-- One bit step of the cyclic redundancy check with generator x^16 + x^12 + x^5 + 1 (R174). -/
def crcBit (r : Half) : Half :=
  if r.getLsbD 15 then (r <<< 1) ^^^ 0x1021 else r <<< 1

/-- One byte taken into the check, most significant bit first (R174). -/
def crcByte (r : Half) (b : Byte) : Half :=
  crcBit (crcBit (crcBit (crcBit (crcBit (crcBit (crcBit (crcBit
    (r ^^^ ((b.setWidth 16) <<< 8)))))))))

/-- The check over bytes; the register starts at 0xFFFF (R174). -/
def crc16 (bytes : List Byte) : Half := bytes.foldl crcByte 0xFFFF

/-- A number as two bytes, most significant first (R180). -/
def bytes2 (n : Nat) : List Byte := [BitVec.ofNat 8 (n / 256), BitVec.ofNat 8 n]

/-- A number as three bytes, most significant first (R180). -/
def bytes3 (n : Nat) : List Byte :=
  [BitVec.ofNat 8 (n / 65536), BitVec.ofNat 8 (n / 256), BitVec.ofNat 8 n]

/-- The lead byte of a frame (R174). -/
def leadByte : Byte := 0xC5

/-- The frame of a payload (R174). -/
def frameOf (payload : List Byte) : List Byte :=
  let body := bytes2 payload.length ++ payload
  leadByte :: body ++ bytes2 (crc16 body).toNat

/-- The error kind codes of an EXCEPTION (R180). -/
def DirError.code : DirError → Byte
  | .unknown => 1
  | .length => 2
  | .range => 3
  | .format => 4
  | .tag => 5
  | .tableFull => 6
  | .noField => 7
  | .kind => 8
  | .modified => 9
  | .window => 10
  | .overlayBusy => 11
  | .noOverlay => 12

/-- The start cause codes (R180). -/
def StartCause.code : StartCause → Byte
  | .power => 1
  | .pin => 2
  | .line => 3

/-- The payload of an EXCEPTION or NOTICE (R180). -/
def Notice.payload : Notice → List Byte
  | .exception sequence offset error => [0x85, sequence] ++ bytes2 offset ++ [error.code]
  | .start cause => [0x86, 1, cause.code]
  | .frame => [0x86, 2, 0]
  | .overrun => [0x86, 3, 0]
  | .chainTimeout sequence => [0x86, 4, sequence]
  | .deadline index => [0x86, 5, BitVec.ofNat 8 index]

/-- An entry offered to the notice queue, dropped when the queue holds 4 (R177). -/
def Line.queueNotice (l : Line) (n : Notice) : Line :=
  if l.notices.length < noticeRoom then { l with notices := l.notices ++ [n] } else l

/-- The idle transmitter chooses the next frame: the oldest notice, or else the reply (R177). -/
def Line.choose (l : Line) : Line :=
  match l.sending with
  | some _ => l
  | none =>
    match l.notices with
    | n :: rest =>
      { l with sending := some { isReply := false, frame := frameOf n.payload }, notices := rest }
    | [] =>
      match l.reply with
      | some p => { l with sending := some { isReply := true, frame := frameOf p } }
      | none => l

/-- Start has ended and RESETN is not held low, so the transmitter and the Stream Unit run (R178). -/
def State.started (s : State) : Bool := !s.start.resetLow && s.start.running.isNone

/-- The transmitter, when it runs, begins a frame if it is idle and one waits (R177, R178). -/
def State.transmit (s : State) : State :=
  if s.started then { s with line := s.line.choose } else s

/-- A notice or exception queued (R177). -/
def State.offer (s : State) (n : Notice) : State :=
  State.transmit { s with line := s.line.queueNotice n }

/-- The reply buffer becomes BUSY with a built reply (R147). -/
def State.claimReply (s : State) (payload : List Byte) : State :=
  State.transmit { s with line := { s.line with reply := some payload } }

/-! ## Tones (R170 to R172) -/

/-- The rank of a pattern (R170). -/
def Pattern.rank : Pattern → Nat
  | .deadline => 6
  | .refuse => 5
  | .overflow => 4
  | .host _ => 3
  | .good => 2
  | .click => 1

/-- A tone step of some milliseconds (R170). -/
def toneStep (p : Pitch) (ms : Nat) : ToneStep := { pitch := p, time := ms * unitsPerMs }

/-- The steps of a pattern (R170). -/
def Pattern.steps : Pattern → List ToneStep
  | .deadline =>
    [toneStep .high 200, toneStep .low 200, toneStep .high 200, toneStep .low 200,
     toneStep .high 200, toneStep .low 200]
  | .refuse => [toneStep .low 150]
  | .overflow => [toneStep .low 60, toneStep .silence 60, toneStep .low 60]
  | .host steps => steps
  | .good => [toneStep .high 40]
  | .click => [toneStep .high 8]

/-- A pattern begun at its first step (R171). -/
def Pattern.begin (p : Pattern) : Option Playing :=
  match p.steps with
  | [] => none
  | st :: rest => some { pattern := p, steps := st :: rest, left := st.time }

/-- A request reaching the Tone Unit (R172). -/
def Tone.request (t : Tone) (p : Pattern) : Tone :=
  match t.playing with
  | none => { t with playing := p.begin }
  | some now =>
    if now.pattern.rank < p.rank then { t with playing := p.begin }
    else if p = .click then t
    else
      match t.pending with
      | none => { t with pending := some p }
      | some waiting => if waiting.rank < p.rank then { t with pending := some p } else t

/-- A tone requested. -/
def State.sound (s : State) (p : Pattern) : State := { s with tone := s.tone.request p }

/-! ## Endings that change the entry state (R92 to R98) -/

/-- The return state as an entry state (R98). -/
def ReturnState.entry : ReturnState → EntryState
  | .openEntry => .openEntry
  | .await => .await
  | .fault => .fault

/-- The type-ahead queue emptied, and with it every scan (R89). -/
def Input.emptied (i : Input) : Input := { i with typeAhead := [], scans := [] }

/-- The entry state leaves HELD at the end of a chain (R98). -/
def Input.chainEnded (i : Input) (release : Bool) : Input :=
  match i.entry with
  | .held back => { i with entry := if release then .openEntry else back.entry }
  | _ => i

/-- A submit is accepted (R96). -/
def State.submitAccepted (s : State) : State :=
  let i := if s.tables.options.typeAhead then s.input else s.input.emptied
  { s with input := { i with entry := .await } }

/-- A key is refused (R97). -/
def State.keyRefused (s : State) : State :=
  let t := s.sound .refuse
  if s.tables.options.softFaults then t
  else { t with input := { t.input.emptied with entry := .fault } }

/-- A scan is refused (R95, R130). -/
def State.scanRefused (s : State) : State := s.sound .refuse

/-- The oldest entry of the type-ahead queue taken by the Entry Engine, when the entry state is OPEN
and that entry is this one (R95). -/
def State.takeEntry (s : State) (e : QueueEntry) : Option State :=
  match s.input.entry, s.input.typeAhead with
  | .openEntry, h :: rest =>
    if h = e then some { s with input := { s.input with typeAhead := rest } } else none
  | _, _ => none

/-- The line resets and POWER_UP aside, nothing is taken while RESETN is held low (R178). -/
def State.alive (s : State) : Bool := !s.start.resetLow

end Sys2Proof.Machine
end

