-- ==== Sys2Proof/Machine/Value.lean ====
section
/-! DEFINITION. The Value Unit (chapter 4): parsing, canonical form, ALPHA and CODE tests, check
digits and stepping. It holds no state: everything here is a function of a record and glyphs. -/

namespace Sys2Proof.Machine

open Sys2Proof

/-- Null or space. -/
def isBlank (b : Byte) : Bool := b = nullGlyph || b = spaceGlyph

/-- A digit 0x30 to 0x39. -/
def isDigit (b : Byte) : Bool := 0x30 ≤ b.toNat && b.toNat ≤ 0x39

/-- The value of a digit glyph. -/
def digitValue (b : Byte) : Nat := b.toNat - 0x30

/-- The glyph of a digit. -/
def digitGlyph (d : Nat) : Byte := BitVec.ofNat 8 (0x30 + d)

/-- The minus sign and the decimal point (R66). -/
def minusGlyph : Byte := 0x2D
def pointGlyph : Byte := 0x2E

/-- Nulls and spaces at the end set aside (R71, R72). -/
def trimEnd (l : List Byte) : List Byte := (l.reverse.dropWhile isBlank).reverse

/-- Nulls and spaces at the start and at the end set aside (R66). -/
def trimBoth (l : List Byte) : List Byte := trimEnd (l.dropWhile isBlank)

/-- The content holds no glyph other than null and space (R18). -/
def isEmptyContent (l : List Byte) : Bool := l.all isBlank

/-! ## The parse (R66 to R68) -/

/-- The outcome of a parse (R66). -/
inductive Parsed where
  | empty
  | value (v : Int)
  | format
  | range
  deriving DecidableEq, Repr

/-- Digits read as a whole number. -/
def digitsValue (l : List Byte) : Nat := l.foldl (fun n b => n * 10 + digitValue b) 0

/-- The magnitude in units of scale `s` of whole digits and fraction digits, rounded half away from
zero by the first discarded digit (R67). -/
def scaledMagnitude (s : Nat) (whole fraction : List Byte) : Nat :=
  if fraction.length ≤ s then digitsValue (whole ++ fraction) * 10 ^ (s - fraction.length)
  else
    digitsValue (whole ++ fraction.take s) +
      (if 5 ≤ digitValue (fraction.getD s 0x30) then 1 else 0)

/-- The range test on a rounded value (R68). -/
def rangeTest (n : NumPart) (length : Nat) (v : Int) : Parsed :=
  if largestMagnitude length n.signed n.scale < v.natAbs then .range
  else if v < n.lower ∨ n.upper < v then .range
  else .value v

/-- The parse of the content of a NUMERIC field of some length (R66). -/
def parseNumber (n : NumPart) (length : Nat) (content : List Byte) : Parsed :=
  let body := trimBoth content
  if body = [] then .empty
  else
    let negative : Bool := n.signed && body.head? = some minusGlyph
    let number := if negative then body.drop 1 else body
    let whole := number.takeWhile (· ≠ pointGlyph)
    let fraction := (number.dropWhile (· ≠ pointGlyph)).drop 1
    if (whole ++ fraction).all isDigit && !(whole ++ fraction).isEmpty then
      let m := scaledMagnitude n.scale whole fraction
      rangeTest n length (if negative then -(m : Int) else m)
    else .format

/-! ## Canonical form (R69) -/

/-- Decimal digits of a number before an ending, without leading zeros and "0" for 0; the fuel is
the number of digits there may be. -/
def decimalOnto : Nat → Nat → List Byte → List Byte
  | 0, _, tail => tail
  | fuel + 1, n, tail =>
    if n < 10 then digitGlyph n :: tail
    else decimalOnto fuel (n / 10) (digitGlyph (n % 10) :: tail)

/-- A number in decimal; a row has room for 96 digits and no more. -/
def decimal (n : Nat) : List Byte := decimalOnto screenCols n []

/-- A number in exactly `s` digits, zero-padded on the left. -/
def paddedDecimal : Nat → Nat → List Byte
  | 0, _ => []
  | s + 1, n => paddedDecimal s (n / 10) ++ [digitGlyph (n % 10)]

/-- The canonical form of a value in a NUMERIC field of some length (R69). -/
def canonical (n : NumPart) (length : Nat) (v : Int) : List Byte :=
  let m := v.natAbs
  let body :=
    (if v < 0 then [minusGlyph] else []) ++ decimal (m / 10 ^ n.scale) ++
      (if 0 < n.scale then pointGlyph :: paddedDecimal n.scale (m % 10 ^ n.scale) else [])
  List.replicate (length - body.length) spaceGlyph ++ body

/-- A value clamped into the limits (R78, R81). -/
def clampTo (n : NumPart) (v : Int) : Int :=
  if v < n.lower then n.lower else if n.upper < v then n.upper else v

/-! ## ALPHA and CODE content (R71 to R74) -/

/-- The used length of ALPHA or CODE content (R71). -/
def usedLength (content : List Byte) : Nat := (trimEnd content).length

/-- The content of a fill-whole field of some length is partial (R71). -/
def isPartial (length : Nat) (content : List Byte) : Bool :=
  0 < usedLength content && usedLength content < length

/-- The sum of data digits, given from the right, each times the weight of its place. -/
def weightedSum (weight : Nat → Nat) : Nat → List Byte → Nat
  | _, [] => 0
  | i, d :: rest => digitValue d * weight i + weightedSum weight (i + 1) rest

/-- The check digit under MOD10W31: weights 3, 1, 3, 1 from the right (R73). -/
def mod10w31Digit (data : List Byte) : Nat :=
  (10 - weightedSum (fun i => if i % 2 = 0 then 3 else 1) 0 data.reverse % 10) % 10

/-- The check digit under MOD11: weights 2 to 7 from the right, repeating; none when no valid code
exists for the data digits (R74). -/
def mod11Digit (data : List Byte) : Option Nat :=
  let r := weightedSum (fun i => 2 + i % 6) 0 data.reverse % 11
  if r = 0 then some 0 else if r = 1 then none else some (11 - r)

/-- The trimmed code ends in the check digit that its rule computes (R72 step 4). -/
def checkDigitAgrees (rule : CheckRule) (code : List Byte) : Bool :=
  let last := digitValue (code.getLastD 0x30)
  match rule with
  | .none => true
  | .mod10w31 => mod10w31Digit code.dropLast = last
  | .mod11 => mod11Digit code.dropLast = some last

/-- The test of CODE content (R72): the error kind of the first failure, or none. -/
def codeTest (rule : CheckRule) (fillWhole : Bool) (length : Nat) (content : List Byte) :
    Option ErrorKind :=
  let code := trimEnd content
  if isEmptyContent content then none
  else if !code.all isDigit || (rule ≠ .none && code.length < 2) then some .format
  else if fillWhole && isPartial length content then some .incomplete
  else if checkDigitAgrees rule code then none
  else some .check

/-- The exit test of a field on some content, by class: the error kind, or none on a pass (R75). -/
def exitTest (f : Field) (content : List Byte) : Option ErrorKind :=
  match f.cls with
  | .numeric n =>
    match parseNumber n f.length content with
    | .format => some .format
    | .range => some .range
    | .empty | .value _ => none
  | .code rule => codeTest rule f.opts.fillWhole f.length content
  | .alpha => if f.opts.fillWhole && isPartial f.length content then some .incomplete else none
  | .none => none

/-! ## Stepping (R77, R78) -/

/-- The starting value of a step: the parsed value, or 0 clamped when the content is empty; none when
the step is refused (R77). -/
def stepStart (n : NumPart) (length : Nat) (content : List Byte) : Option Int :=
  match parseNumber n length content with
  | .empty => some (clampTo n 0)
  | .value v => some v
  | .format | .range => none

/-! ## Tally arithmetic (R81) -/

/-- A sum divided by a power of ten, rounded half away from zero (R81 step 2). -/
def roundHalfAway (x : Int) (d : Nat) : Int :=
  let m : Int := ((x.natAbs / d + if d ≤ 2 * (x.natAbs % d) then 1 else 0 : Nat) : Int)
  if x < 0 then -m else m

/-! ## The shown value of a clock field (R165) -/

/-- A number below 100 as two digits. -/
def twoDigits (n : Nat) : List Byte := [digitGlyph (n / 10), digitGlyph (n % 10)]

/-- The colon (R165). -/
def colonGlyph : Byte := 0x3A

/-- The text of a second of the day: HH:MM in a field of length 5 and HH:MM:SS in one of length 8. -/
def clockText (length second : Nat) : List Byte :=
  let short := twoDigits (second / 3600) ++ [colonGlyph] ++ twoDigits (second / 60 % 60)
  if length = 5 then short else short ++ [colonGlyph] ++ twoDigits (second % 60)

/-! ## Characters a class admits (R112, R130) -/

/-- The class table's entry of a glyph. -/
def classEntry (classes : List CharClass) (g : Byte) : CharClass :=
  classes.getD g.toNat
    { printable := false, digit := false, letter := false, numpunct := false, fold := g }

/-- A glyph after fold, when the field has the fold option and the glyph carries LETTER (R87). -/
def foldGlyph (classes : List CharClass) (f : Field) (g : Byte) : Byte :=
  if f.opts.fold && (classEntry classes g).letter then (classEntry classes g).fold else g

/-- The glyph carries a class that the field's class allows (R112). -/
def admits (classes : List CharClass) (f : Field) (g : Byte) : Bool :=
  let e := classEntry classes g
  match f.cls with
  | .alpha => e.printable
  | .numeric _ => e.digit || e.numpunct
  | .code _ => e.digit
  | .none => false

end Sys2Proof.Machine
end

