-- ==== Sys2Proof/Machine/Flags.lean ====
section
/-! DEFINITION. The marks of a field and what sets and clears them: error marks by the exit test,
the incomplete and saturated marks of tallies, alert marks, the visit flag; and the changes of
current field that run them. -/

namespace Sys2Proof.Machine

open Sys2Proof

/-! ## Tallies (R80 to R82) -/

/-- What the examination of one source gives (R80). -/
inductive SourceReading where
  | fault
  | empty
  | counted (atScale3 : Int)
  deriving DecidableEq, Repr

/-- The examination of one tag of a source list, its value brought to scale 3 (R80, R81 step 1). -/
def Form.readSource (fm : Form) (t : Nat) : SourceReading :=
  match fm.record t with
  | none => .fault
  | some (f, susp) =>
    match f.cls with
    | .numeric n =>
      if (f.kind = .entry ∨ f.kind = .live) ∧ f.errorMark = none then
        match parseNumber n f.length (fm.content susp f) with
        | .empty => .empty
        | .value v => .counted (v * 10 ^ (3 - n.scale))
        | .format | .range => .fault
      else .fault
    | _ => .fault

/-- The exact sum at scale 3 of the sources that count (R81 step 1). -/
def Form.tallySum (fm : Form) : List Nat → Int
  | [] => 0
  | t :: rest =>
    (match fm.readSource t with
     | .counted v => v
     | .fault | .empty => 0) + fm.tallySum rest

/-- At least one examination gives a fault (R80). -/
def Form.tallyIncomplete (fm : Form) (tags : List Nat) : Bool :=
  tags.any fun t => fm.readSource t = .fault

/-- The result of a tally before it is clamped (R81 steps 1 and 2). -/
def Form.tallyResult (fm : Form) (n : NumPart) (tags : List Nat) : Int :=
  roundHalfAway (fm.tallySum tags) (10 ^ (3 - n.scale))

/-- The tally holding a tag recomputed: its content written and its marks set or cleared (R80, R81). -/
def Form.recomputeTally (fm : Form) (t : Nat) : Form :=
  match fm.record t with
  | none => fm
  | some (f, susp) =>
    match f.kind, f.cls with
    | .tally, .numeric n =>
      match f.sources with
      | none =>
        (fm.writeContent susp f (List.replicate f.length nullGlyph)).mapTag t fun g =>
          { g with incomplete := true, saturated := false }
      | some tags =>
        let v := fm.tallyResult n tags
        let w := clampTo n v
        let incomplete := fm.tallyIncomplete tags
        (fm.writeContent susp f (canonical n f.length w)).mapTag t fun g =>
          { g with incomplete := incomplete, saturated := v ≠ w }
    | _, _ => fm

/-- The record is a tally whose source list names one of the tags. -/
def Field.talliesAny (f : Field) (tags : List Nat) : Bool :=
  f.kind = .tally && (f.sources.getD []).any tags.contains

/-- Every tally, active or suspended, that names one of the tags recomputed (R82). -/
def Form.recomputeNaming (fm : Form) (tags : List Nat) : Form :=
  (((fm.active ++ fm.suspended).filter (·.talliesAny tags)).map (·.tag)).foldl
    Form.recomputeTally fm

/-! ## The exit test acted on (R70, R75) -/

/-- The rewrite in canonical form of a NUMERIC field with the normalise option whose content parses
to a value (R70). -/
def Form.normalise (fm : Form) (susp : Bool) (f : Field) : Form :=
  match f.cls with
  | .numeric n =>
    if f.opts.normalise then
      match parseNumber n f.length (fm.content susp f) with
      | .value v => fm.writeContent susp f (canonical n f.length v)
      | .empty | .format | .range => fm
    else fm
  | _ => fm

/-- The error mark of the record holding a tag set or cleared (R34). -/
def Form.setError (fm : Form) (t : Nat) (e : Option ErrorKind) : Form :=
  fm.mapTag t fun g => { g with errorMark := e }

/-- The exit test of an active field made and acted on: error mark, normalise, tallies (R75). -/
def Form.applyExitTest (fm : Form) (f : Field) : Form :=
  let verdict := exitTest f (fm.content false f)
  let marked := fm.setError f.tag verdict
  (if verdict = none then marked.normalise false f else marked).recomputeNaming [f.tag]

/-- Exit processing of the current field (R102). -/
def Form.exitProcess (fm : Form) : Form :=
  match fm.current with
  | some f => if fm.visit then { fm.applyExitTest f with visit := false } else fm
  | none => fm

/-! ## Changes of current field (R101, R110) -/

/-- A push of a tag on the field history (R110). -/
def pushHistory (history : List Nat) (t : Nat) : List Nat :=
  if history.head? = some t then history else (t :: history).take historyRoom

/-- The history after a push of the field left, when there was one (R110). -/
def pushLeft (history : List Nat) (left : Option Field) : List Nat :=
  match left with
  | some f => pushHistory history f.tag
  | none => history

/-- The cursor placed at a position by an action or directive, with the steps of R101 when the
current field changes (log 21). -/
def Form.moveTo (fm : Form) (insertAtEntry push : Bool) (p : Nat) : Form :=
  let before := fm.current
  let after := fm.fieldAt p
  if before.map (·.tag) = after.map (·.tag) then { fm with cursor := p }
  else
    let out := fm.exitProcess
    { out with
      history := if push then pushLeft out.history before else out.history
      cursor := p
      insert := if after.isSome then insertAtEntry else out.insert
      visit := false }

/-- Where HOME, NEWLINE, NEXT and PREV go when no field is eligible (R106). -/
def Form.homePosition (fm : Form) : Nat :=
  match fm.overlay with
  | some o => o.window.corner
  | none => 0

/-- The position of a field move: the first cell of the field chosen, or as R106 gives. -/
def Form.moveTarget (fm : Form) (chosen : Option Field) : Nat :=
  match chosen with
  | some f => f.start
  | none => fm.homePosition

/-- The field that the tab chain of the current field leads to, when it is eligible (R108 step 1). -/
def Form.chained (fm : Form) : Option Field :=
  match fm.current with
  | some f =>
    match f.next with
    | some t => fm.eligible.find? (·.tag == t)
    | none => none
  | none => none

/-- The field that NEXT chooses (R108). -/
def Form.nextField (fm : Form) : Option Field :=
  match fm.chained with
  | some f => some f
  | none =>
    match fm.eligible.find? fun f => fm.cursor < f.start with
    | some f => some f
    | none => fm.eligible.head?

/-- The cursor moved as NEXT moves it (R108, R118, R132). -/
def Form.moveNext (fm : Form) (insertAtEntry : Bool) : Form :=
  fm.moveTo insertAtEntry true (fm.moveTarget fm.nextField)

/-! ## The visit flag at a drop (R26) -/

/-- The record with a tag is the current field. -/
def Form.isCurrent (fm : Form) (t : Nat) : Bool := fm.current.any (·.tag == t)

/-- The records with one of the tags dropped; when the current field is among them the visit flag is
cleared (R26). The tallies that name them are not yet recomputed. -/
def Form.dropTags (fm : Form) (tags : List Nat) : Form :=
  let visit := fm.visit && !(fm.current.any fun f => tags.contains f.tag)
  { fm with
    active := fm.active.filter fun f => !tags.contains f.tag
    overlay := fm.overlay.map fun o =>
      { o with suspended := o.suspended.filter fun f => !tags.contains f.tag }
    visit := visit }

/-! ## Clock fields (R165) -/

/-- A clock field written with a second of the day (R165). -/
def Form.writeClock (fm : Form) (second : Nat) (susp : Bool) (f : Field) : Form :=
  fm.writeContent susp f (clockText f.length second)

/-- Every clock field among records written, when a condition on its length holds. -/
def Form.writeClocks (fm : Form) (second : Nat) (due : Nat → Bool) : Form :=
  let one (susp : Bool) (g : Form) (f : Field) : Form :=
    if f.kind = .clock && due f.length then g.writeClock second susp f else g
  fm.suspended.foldl (one true) (fm.active.foldl (one false) fm)

end Sys2Proof.Machine
end

