-- ==== Sys2Proof/Machine/Reply.lean ====
section
/-! DEFINITION. The Reply Unit (chapter 9): field entries, SUBMISSION, READOUT, SCREEN and STATUS as
bytes (R180), and what building each of them changes. -/

namespace Sys2Proof.Machine

open Sys2Proof

/-- The content of a field entry: trailing nulls dropped, inner nulls sent as spaces (R153). -/
def replyContent (content : List Byte) : List Byte :=
  ((content.reverse.dropWhile (· = nullGlyph)).reverse).map fun g =>
    if g = nullGlyph then spaceGlyph else g

/-- A flag as a number. -/
def bit (b : Bool) (weight : Nat) : Nat := if b then weight else 0

/-- The error flag of a field entry (R152). -/
def Field.errorFlag (f : Field) : Bool :=
  f.errorMark.isSome || (f.kind = .tally && (f.incomplete || f.saturated))

/-- The bytes of one field entry (R152, R180). -/
def Form.fieldEntry (fm : Form) (susp : Bool) (f : Field) : List Byte :=
  let content := replyContent (fm.content susp f)
  [BitVec.ofNat 8 f.tag,
   BitVec.ofNat 8 (bit f.collision 1 + bit f.errorFlag 2 + bit susp 4),
   BitVec.ofNat 8 content.length] ++ content

/-- The fields that a SUBMISSION or a MODIFIED readout reports (R152). -/
def Form.reported (fm : Form) : List Field :=
  fm.active.filter fun f => (f.modified || f.opts.keepInReply) && fm.reachable f

/-- The collision marks of the fields with some tags cleared (R33, R154). -/
def Form.clearCollisions (fm : Form) (tags : List Nat) : Form :=
  fm.mapRecords fun f => if tags.contains f.tag then { f with collision := false } else f

/-- The bytes that SUBMISSION and READOUT share: kind, sequence, key number, cursor, stamp, field
count and entries (R151, R156, R180). -/
def State.reportBytes (s : State) (kind key : Byte) (stamp : Clock) (count : Nat)
    (entries : List Byte) : List Byte :=
  [kind, s.stream.lastSeq, key, BitVec.ofNat 8 (s.form.cursor / screenCols),
   BitVec.ofNat 8 (s.form.cursor % screenCols)] ++
    bytes2 stamp.day ++ bytes3 stamp.second ++ bytes2 stamp.millisecond ++
    [BitVec.ofNat 8 count] ++ entries

/-- The report of the modified and kept fields, which clears their collision marks (R151 to R154,
R156). -/
def State.buildReport (s : State) (kind key : Byte) (stamp : Clock) : State :=
  let fields := s.form.reported
  let entries := fields.flatMap (s.form.fieldEntry false)
  State.claimReply
    { s with form := s.form.clearCollisions (fields.map (·.tag)) }
    (s.reportBytes kind key stamp fields.length entries)

/-- READ ALL: every record, the active ones first (R157). -/
def State.buildReadAll (s : State) : State :=
  let active := s.form.active
  let suspended := s.form.suspended
  let entries :=
    active.flatMap (s.form.fieldEntry false) ++ suspended.flatMap (s.form.fieldEntry true)
  State.claimReply
    { s with form := s.form.mapRecords fun f => { f with collision := false } }
    (s.reportBytes 0x82 0 s.clock (active.length + suspended.length) entries)

/-- The payload of READ SCREEN (R158, R16). -/
def State.screenBytes (s : State) : List Byte :=
  [0x83, s.stream.lastSeq] ++
    (List.range cellCount).flatMap fun p =>
      let c := readCell s.form.cells p
      [c.glyph, BitVec.ofNat 8 c.style]

/-- The entry state codes (R180). -/
def EntryState.code : EntryState → Byte
  | .openEntry => 1
  | .held _ => 2
  | .await => 3
  | .fault => 4

/-- The return state codes, 0 for none (R180). -/
def EntryState.returnCode : EntryState → Byte
  | .held .openEntry => 1
  | .held .await => 3
  | .held .fault => 4
  | .openEntry | .await | .fault => 0

/-- The options as the OPTIONS flags (R180). -/
def Options.code (o : Options) : Byte :=
  BitVec.ofNat 8
    (bit o.typeAhead 1 + bit o.softFaults 2 + bit o.keyClick 4 + bit o.insertAtEntry 8)

/-- The overlay byte and the window, zeros when NONE (R180). -/
def Form.overlayBytes (fm : Form) : List Byte :=
  match fm.overlay with
  | some o =>
    [1, BitVec.ofNat 8 o.window.top, BitVec.ofNat 8 o.window.left,
     BitVec.ofNat 8 o.window.height, BitVec.ofNat 8 o.window.width]
  | none => [0, 0, 0, 0, 0]

/-- The deadline state codes (R180). -/
def DeadlineState.code : DeadlineState → Nat
  | .off => 0
  | .armed => 1
  | .passed => 2

/-- The deadline states in one byte, entry 0 in the lowest bits (R180). -/
def deadlineBits : List Deadline → Nat
  | [] => 0
  | d :: rest => d.state.code + 4 * deadlineBits rest

/-- The revision code (R159). -/
def revisionCode : Byte := 0x21

/-- The payload of READ STATUS (R159, R180). -/
def State.statusBytes (s : State) : List Byte :=
  [0x84, s.input.entry.code, s.input.entry.returnCode, s.tables.options.code,
   BitVec.ofNat 8 s.form.active.length, BitVec.ofNat 8 s.form.suspended.length] ++
    s.form.overlayBytes ++
    [BitVec.ofNat 8 s.input.typeAhead.length, BitVec.ofNat 8 s.input.scans.length,
     BitVec.ofNat 8 (deadlineBits s.clock.deadlines)] ++
    bytes2 s.clock.day ++ bytes3 s.clock.second ++ bytes2 s.clock.millisecond ++
    bytes2 s.clock.addend ++ [s.stream.lastSeq, s.start.cause.code, revisionCode]

/-- The reply of a READ built in the free reply buffer (R60, R156 to R159). -/
def State.buildReadReply (s : State) : Selector → State
  | .modified => s.buildReport 0x82 0 s.clock
  | .all => s.buildReadAll
  | .screen => s.claimReply s.screenBytes
  | .status => s.claimReply s.statusBytes

end Sys2Proof.Machine
end

