-- ==== Sys2Proof/Machine/Stream.lean ====
section
/-! DEFINITION. The Stream Unit (R40 to R46): how a directive of the block in hand is reached,
refused and completed, the chain byte, and the steps BLOCK_TAKEN, CHAIN_CONTINUATION, CHAIN_TIMEOUT,
DIRECTIVE_UNKNOWN and READ_RESUME. -/

namespace Sys2Proof.Machine

open Sys2Proof

/-- The oldest receive buffer, which is the block in hand in APPLYING (R40, R41). -/
def State.block (s : State) : List Byte := s.line.buffers.headD []

/-- The bytes of the directive list of a block from an offset on, without the chain byte (R41). -/
def directiveList (payload : List Byte) (offset : Nat) : List Byte :=
  (payload.drop offset).dropLast

/-- What stands at the offset reached, when application is not paused (R42 steps 1 and 2). -/
inductive Fetched where
  /-- No directive is due: nothing is being applied, or application is paused at a READ. -/
  | nothing
  /-- A code that is not in the table of R41. -/
  | unknown (code : Byte)
  /-- A directive whose arguments run past the directive list. -/
  | short (code : Byte)
  /-- A directive, and how many bytes of the directive list follow it. -/
  | directive (d : Instr) (left : Nat)
  deriving DecidableEq, Repr

/-- The directive list read at its first byte (R42 steps 1 and 2). -/
def fetchBytes : List Byte → Fetched
  | [] => .nothing
  | code :: args =>
    if directiveCodes.contains code then
      match parseDirective code args with
      | some (d, rest) => .directive d rest.length
      | none => .short code
    else .unknown code

/-- What the Stream Unit reaches next in the block in hand (R42). -/
def State.fetch (s : State) : Fetched :=
  match s.stream.phase with
  | .applying offset none => fetchBytes (directiveList s.block offset)
  | _ => .nothing

/-- The byte continues a chain: its upper four bits are the complement of its lower four (R44). -/
def chainContinues (b : Byte) : Bool := b.extractLsb' 4 4 = ~~~(b.extractLsb' 0 4)

/-- A chain ends: the write context is reset, the unit goes to IDLE, the buffer of the block is freed
and the entry state leaves HELD (R43, R44, R98). -/
def State.endChain (s : State) (release : Bool) : State :=
  { s with
    stream := { s.stream with phase := .idle, writePos := 0, style := 0 }
    line := { s.line with buffers := s.line.buffers.tail }
    input := s.input.chainEnded release }

/-- The chain byte of the block in hand examined (R44). -/
def State.examineChainByte (s : State) : State :=
  if chainContinues (s.block.getLastD 0) then
    { s with
      stream := { s.stream with phase := .chained chainUnits }
      line := { s.line with buffers := s.line.buffers.tail } }
  else s.endChain ((s.block.getD 1 0).getLsbD 0)

/-- The offset reached moves to where so many bytes of the directive list are left; when none are,
the chain byte is examined (R42, log 9). -/
def State.reachOffset (s : State) (left : Nat) : State :=
  let t := { s with
    stream := { s.stream with phase := .applying (s.block.length - 1 - left) none } }
  if left = 0 then t.examineChainByte else t

/-- The offset reached in the block in hand. -/
def State.offset (s : State) : Nat :=
  match s.stream.phase with
  | .applying offset _ => offset
  | .idle | .chained _ => 0

/-- A directive is refused: the block stops, the chain ends without release and an EXCEPTION is
queued (R43). -/
def State.refuseDirective (s : State) (e : DirError) : State :=
  (s.endChain false).offer (.exception s.stream.chainSeq s.offset e)

/-- The step of a directive (R42): when the block in hand has it next, its body's effect is taken
and the offset moves on, or the error refuses it; when the bytes at the offset are too short for a
directive of its code it is refused with LENGTH (log 17); otherwise the step is not due (log 1). -/
def State.directive (s : State) (d : Instr) (body : State → Except DirError State) : State :=
  match s.fetch with
  | .directive d' left =>
    if d' = d then
      match body s with
      | .ok t => t.reachOffset left
      | .error e => s.refuseDirective e
    else s
  | .short code => if directiveCode d = some code then s.refuseDirective .length else s
  | .unknown _ | .nothing => s

/-- The Stream Unit begins on the oldest waiting block with the write context as it stands: the
sequence numbers are set, and an empty directive list goes straight to its chain byte (R41, R45). -/
def State.beginBlock (s : State) : State :=
  let t := { s with
    stream := { s.stream with
      phase := .applying 2 none
      chainSeq := s.block.getD 0 0
      lastSeq := s.block.getD 0 0 } }
  t.reachOffset (directiveList s.block 2).length

/-- The Key Unit records the return state and goes to HELD (R91). -/
def Input.applicationBegun (i : Input) : Input :=
  match i.entry with
  | .openEntry => { i with entry := .held .openEntry }
  | .await => { i with entry := .held .await }
  | .fault => { i with entry := .held .fault }
  | .held _ => i

/-- BLOCK_TAKEN (R41): due in IDLE, once start has ended, when a receive buffer holds a block. -/
def execBlockTaken (s : State) : Host.Outcome State Fault Refusal :=
  match s.stream.phase, s.line.buffers with
  | .idle, _ :: _ =>
    if s.started then
      .next (State.beginBlock { s with
        stream := { s.stream with writePos := 0, style := 0 }
        input := s.input.applicationBegun })
    else .next s
  | _, _ => .next s

/-- CHAIN_CONTINUATION (R45): due in CHAINED when a receive buffer holds a block. -/
def execChainContinuation (s : State) : Host.Outcome State Fault Refusal :=
  match s.stream.phase, s.line.buffers with
  | .chained _, _ :: _ => .next s.beginBlock
  | _, _ => .next s

/-- The chain abandoned by its timer: no buffer is freed, for none is in hand (R45). -/
def State.abandonChain (s : State) : State :=
  State.offer
    { s with
      stream := { s.stream with phase := .idle, writePos := 0, style := 0 }
      input := s.input.chainEnded false }
    (.chainTimeout s.stream.chainSeq)

/-- CHAIN_TIMEOUT (R45): due in CHAINED when the chain timer has run out. -/
def execChainTimeout (s : State) : Host.Outcome State Fault Refusal :=
  match s.stream.phase with
  | .chained 0 => .next s.abandonChain
  | .chained (_ + 1) => .next s
  | .idle => .next s
  | .applying _ _ => .next s

/-- DIRECTIVE_UNKNOWN (R42 step 1): due when the byte at the offset reached is this code and no
directive has it. -/
def execDirectiveUnknown (code : Byte) (s : State) : Host.Outcome State Fault Refusal :=
  .next (if s.fetch = .unknown code then s.refuseDirective .unknown else s)

/-- READ (R60): the reply is built at once when the reply buffer is FREE, and application pauses at
the READ while it is BUSY. -/
def execRead (selector : Byte) (s : State) : Host.Outcome State Fault Refusal :=
  match s.fetch, selectorOf selector, s.line.reply with
  | .directive d _, some chosen, some _ =>
    if d = .read selector then
      .next { s with stream := { s.stream with phase := .applying s.offset (some chosen) } }
    else .next s
  | _, _, _ =>
    .next (s.directive (.read selector) fun t =>
      match selectorOf selector with
      | some chosen => .ok (t.buildReadReply chosen)
      | none => .error .range)

/-- READ_RESUME (R61): due when application is paused at a READ and the reply buffer is FREE. -/
def execReadResume (s : State) : Host.Outcome State Fault Refusal :=
  match s.stream.phase, s.line.reply with
  | .applying offset (some chosen), none =>
    .next ((s.buildReadReply chosen).reachOffset (directiveList s.block (offset + 2)).length)
  | _, _ => .next s

end Sys2Proof.Machine
end

