-- ==== Sys2Proof/Machine/Compose.lean ====
section
/-! DEFINITION. The directives of chapter 3 that act on the write context, the cells, the cursor,
the tables and the options: AT, WRITE, FILL, STYLE, ERASE, CLEAR_FORM, CURSOR, CURSOR_FIELD, TABLE,
OPTIONS (R47 to R59). -/

namespace Sys2Proof.Machine

open Sys2Proof

/-- A row and a column as a position, or RANGE (R47, R54). -/
def positionOf (row col : Byte) : Except DirError Nat :=
  if screenRows ≤ row.toNat ∨ screenCols ≤ col.toNat then .error .range
  else .ok (row.toNat * screenCols + col.toNat)

/-- The body of AT (R47). -/
def bodySetAt (row col : Byte) (s : State) : Except DirError State :=
  match positionOf row col with
  | .ok p => .ok { s with stream := { s.stream with writePos := p } }
  | .error e => .error e

/-- AT (R47). -/
def execSetAt (row col : Byte) (s : State) : Host.Outcome State Fault Refusal :=
  .next (s.directive (.setAt row col) (bodySetAt row col))

/-- A run of host cell writes from the write position, and one recomputation of each tally that names
a field whose cells were written (R37, R49, R52). -/
def State.hostWrite (s : State) (cells : List Cell) : State :=
  let run := s.form.hostRun s.stream.writePos cells
  { s with
    form := run.1.recomputeNaming run.2.2
    stream := { s.stream with writePos := run.2.1 } }

/-- The body of WRITE (R49). -/
def bodyWrite (glyphs : List Byte) (s : State) : Except DirError State :=
  if glyphs = [] then .error .range
  else .ok (s.hostWrite (glyphs.map fun g => { glyph := g, style := s.stream.style }))

/-- WRITE (R49). -/
def execWrite (glyphs : List Byte) (s : State) : Host.Outcome State Fault Refusal :=
  .next (s.directive (.write glyphs) (bodyWrite glyphs))

/-- A count of cells is in range (R50, R51). -/
def cellCountOf (count : Half) : Except DirError Nat :=
  if count = 0 ∨ cellCount < count.toNat then .error .range else .ok count.toNat

/-- The body of FILL (R50). -/
def bodyFill (glyph : Byte) (count : Half) (s : State) : Except DirError State :=
  match cellCountOf count with
  | .ok n => .ok (s.hostWrite (List.replicate n { glyph := glyph, style := s.stream.style }))
  | .error e => .error e

/-- FILL (R50). -/
def execFill (glyph : Byte) (count : Half) (s : State) : Host.Outcome State Fault Refusal :=
  .next (s.directive (.fill glyph count) (bodyFill glyph count))

/-- The body of STYLE (R48). -/
def bodyStyle (number : Byte) (s : State) : Except DirError State :=
  if 15 < number.toNat then .error .range
  else .ok { s with stream := { s.stream with style := number.toNat } }

/-- STYLE (R48). -/
def execStyle (number : Byte) (s : State) : Host.Outcome State Fault Refusal :=
  .next (s.directive (.style number) (bodyStyle number))

/-- The body of ERASE (R51). -/
def bodyErase (count : Half) (s : State) : Except DirError State :=
  match cellCountOf count with
  | .ok n => .ok (s.hostWrite (List.replicate n blankCell))
  | .error e => .error e

/-- ERASE (R51). -/
def execErase (count : Half) (s : State) : Host.Outcome State Fault Refusal :=
  .next (s.directive (.erase count) (bodyErase count))

/-- The body of CLEAR FORM (R53, R145): everything of the form but the insert mode is cleared, and
the write context with it. -/
def bodyClearForm (s : State) : Except DirError State :=
  .ok { s with
    form := { formReset with insert := s.form.insert }
    stream := { s.stream with writePos := 0, style := 0 } }

/-- CLEAR_FORM (R53). -/
def execClearForm (s : State) : Host.Outcome State Fault Refusal :=
  .next (s.directive .clearForm bodyClearForm)

/-- The cursor placed by the host: no push (R54, R55). -/
def State.hostCursor (s : State) (p : Nat) : State :=
  { s with form := s.form.moveTo s.tables.options.insertAtEntry false p }

/-- The body of CURSOR (R54). -/
def bodyCursor (row col : Byte) (s : State) : Except DirError State :=
  match positionOf row col with
  | .error e => .error e
  | .ok p =>
    if s.form.overlay.isSome && !s.form.inWindow p then .error .window
    else .ok (s.hostCursor p)

/-- CURSOR (R54). -/
def execCursor (row col : Byte) (s : State) : Host.Outcome State Fault Refusal :=
  .next (s.directive (.cursor row col) (bodyCursor row col))

/-- A tag byte is in range (R25, R27, R55). -/
def tagInRange (tag : Byte) : Bool := tag ≠ 0 && tag.toNat ≤ lastTag

/-- The body of CURSOR FIELD (R55). -/
def bodyCursorField (tag : Byte) (s : State) : Except DirError State :=
  if !tagInRange tag then .error .tag
  else
    match s.form.activeTag tag.toNat with
    | none => .error .noField
    | some f => if s.form.reachable f then .ok (s.hostCursor f.start) else .error .window

/-- CURSOR_FIELD (R55). -/
def execCursorField (tag : Byte) (s : State) : Host.Outcome State Fault Refusal :=
  .next (s.directive (.cursorField tag) (bodyCursorField tag))

/-! ## Tables (R56, R57) -/

/-- A run of entries written from an index of a plane on, wrapping within the plane; `base` is where
the plane begins in the table (R57). -/
def loadPlane {α : Type} (table : List α) (base size : Nat) : Nat → List α → List α
  | _, [] => table
  | index, e :: rest =>
    loadPlane (table.set (base + index % size) e) base size ((index + 1) % size) rest

/-- A run of style entries written from an index on, index 0 ignored (R5, R57). -/
def loadStyles (styles : List Style) : Nat → List Style → List Style
  | _, [] => styles
  | index, e :: rest =>
    loadStyles (if index % 16 = 0 then styles else styles.set (index % 16) e)
      ((index + 1) % 16) rest

/-- Planes of a table and entries per plane (R56). -/
def tableShape (number : Byte) : Option (Nat × Nat) :=
  if number = 1 then some (3, 128) else if number = 2 then some (1, 256)
  else if number = 3 then some (1, 16) else none

/-- The tables with the entries of a TABLE directive loaded, when every entry is accepted (R56 step 5,
R57). -/
def Tables.load (t : Tables) (number : Byte) (plane start : Nat) (entries : List Byte) :
    Option Tables :=
  if number = 1 then
    (allSome ((pairUp entries).map fun p => actionOf p.1 p.2)).map fun actions =>
      { t with keys := loadPlane t.keys (plane * 128) 128 start actions }
  else if number = 2 then
    some { t with
      classes := loadPlane t.classes 0 256 start
        ((pairUp entries).map fun p => charClassOf p.1 p.2) }
  else
    (allSome (entries.map styleOf)).map fun styles =>
      { t with styles := loadStyles t.styles start styles }

/-- The body of TABLE (R56, R57). -/
def bodyTable (number plane start count : Byte) (entries : List Byte) (s : State) :
    Except DirError State :=
  match tableShape number with
  | none => .error .range
  | some (planes, size) =>
    if planes ≤ plane.toNat then .error .range
    else if size ≤ start.toNat then .error .range
    else if count = 0 then .error .range
    else
      match s.tables.load number plane.toNat start.toNat entries with
      | none => .error .range
      | some t => .ok { s with tables := t }

/-- TABLE (R56, R57). -/
def execTable (number plane start count : Byte) (entries : List Byte) (s : State) :
    Host.Outcome State Fault Refusal :=
  .next (s.directive (.table number plane start count entries)
    (bodyTable number plane start count entries))

/-- The body of OPTIONS (R59). -/
def bodyOptions (flags : Byte) (s : State) : Except DirError State :=
  .ok { s with tables := { s.tables with options := optionsOf flags } }

/-- OPTIONS (R59). -/
def execOptions (flags : Byte) (s : State) : Host.Outcome State Fault Refusal :=
  .next (s.directive (.options flags) (bodyOptions flags))

end Sys2Proof.Machine
end

