-- ==== Sys2Proof/Machine/Moves.lean ====
section
/-! DEFINITION. Cursor movement (chapter 6): LEFT, RIGHT, UP, DOWN, HOME, NEWLINE, NEXT, PREV, BACK. -/

namespace Sys2Proof.Machine

open Sys2Proof

/-- The position a number of places on in the succession of a window's cells (R104). -/
def Window.shifted (w : Window) (p places : Nat) : Nat :=
  let index := (p / screenCols - w.top) * w.width + (p % screenCols - w.left)
  let there := (index + places) % (w.height * w.width)
  (w.top + there / w.width) * screenCols + (w.left + there % w.width)

/-- Where RIGHT goes (R104). -/
def Form.rightOf (fm : Form) : Nat :=
  match fm.overlay with
  | some o => o.window.shifted fm.cursor 1
  | none => nextPosition fm.cursor

/-- Where LEFT goes (R104). -/
def Form.leftOf (fm : Form) : Nat :=
  match fm.overlay with
  | some o => o.window.shifted fm.cursor (o.window.height * o.window.width - 1)
  | none => previousPosition fm.cursor

/-- Where DOWN goes (R105). -/
def Form.downOf (fm : Form) : Nat :=
  match fm.overlay with
  | some o => o.window.shifted fm.cursor o.window.width
  | none => (fm.cursor + screenCols) % cellCount

/-- Where UP goes (R105). -/
def Form.upOf (fm : Form) : Nat :=
  match fm.overlay with
  | some o => o.window.shifted fm.cursor ((o.window.height - 1) * o.window.width)
  | none => (fm.cursor + (cellCount - screenCols)) % cellCount

/-- The cursor moved by an operator action, when that action is due (R95, R101). -/
def State.moveAction (s : State) (a : Action) (push : Bool) (goal : Form → Nat) : State :=
  match s.takeEntry (.action a) with
  | some t =>
    { t with form := t.form.moveTo t.tables.options.insertAtEntry push (goal t.form) }
  | none => s

/-- LEFT (R104). -/
def execLeft (s : State) : Host.Outcome State Fault Refusal :=
  .next (s.moveAction .left false Form.leftOf)

/-- RIGHT (R104). -/
def execRight (s : State) : Host.Outcome State Fault Refusal :=
  .next (s.moveAction .right false Form.rightOf)

/-- UP (R105). -/
def execUp (s : State) : Host.Outcome State Fault Refusal :=
  .next (s.moveAction .up false Form.upOf)

/-- DOWN (R105). -/
def execDown (s : State) : Host.Outcome State Fault Refusal :=
  .next (s.moveAction .down false Form.downOf)

/-- The field that HOME chooses (R107). -/
def Form.homeField (fm : Form) : Option Field := fm.eligible.head?

/-- The field that NEWLINE chooses (R107). -/
def Form.newlineField (fm : Form) : Option Field :=
  match fm.eligible.find? fun f => fm.cursor / screenCols < f.start / screenCols with
  | some f => some f
  | none => fm.eligible.head?

/-- The field that PREV chooses (R109). -/
def Form.prevField (fm : Form) : Option Field :=
  let reference :=
    match fm.current with
    | some f => f.start
    | none => fm.cursor
  match fm.eligible.reverse.find? fun f => f.start < reference with
  | some f => some f
  | none => fm.eligible.getLast?

/-- HOME (R107). -/
def execHome (s : State) : Host.Outcome State Fault Refusal :=
  .next (s.moveAction .home true fun fm => fm.moveTarget fm.homeField)

/-- NEWLINE (R107). -/
def execNewline (s : State) : Host.Outcome State Fault Refusal :=
  .next (s.moveAction .newline true fun fm => fm.moveTarget fm.newlineField)

/-- NEXT (R108). -/
def execNext (s : State) : Host.Outcome State Fault Refusal :=
  .next (s.moveAction .next true fun fm => fm.moveTarget fm.nextField)

/-- PREV (R109). -/
def execPrev (s : State) : Host.Outcome State Fault Refusal :=
  .next (s.moveAction .prev true fun fm => fm.moveTarget fm.prevField)

/-- The field that BACK accepts for a tag (R111). -/
def Form.backField (fm : Form) (t : Nat) : Option Field :=
  match fm.activeTag t with
  | some f => if !fm.isCurrent t && fm.reachable f then some f else none
  | none => none

/-- Tags taken from the top of the history until one is accepted: the field, and the tags left (R111). -/
def Form.backPop (fm : Form) : List Nat → Option Field × List Nat
  | [] => (none, [])
  | t :: rest =>
    match fm.backField t with
    | some f => (some f, rest)
    | none => fm.backPop rest

/-- BACK carried out on a state from which its entry has been taken (R111, R117). -/
def State.goBack (s : State) : State :=
  let popped := s.form.backPop s.form.history
  let left := { s.form with history := popped.2 }
  match popped.1 with
  | some f => { s with form := left.moveTo s.tables.options.insertAtEntry false f.start }
  | none => State.keyRefused { s with form := left }

/-- BACK (R111). -/
def execBack (s : State) : Host.Outcome State Fault Refusal :=
  .next
    (match s.takeEntry (.action .back) with
     | some t => t.goBack
     | none => s)

end Sys2Proof.Machine
end

