-- ==== Sys2Proof/Machine/Edit.lean ====
section
/-! DEFINITION. Editing (chapter 6) and stepping (chapter 4): CHAR, BACKSPACE, DELETE, ERASE_TO_END,
ERASE_FIELD, INSERT_TOGGLE, STEP_UP, STEP_DOWN. -/

namespace Sys2Proof.Machine

open Sys2Proof

/-- An editing action, when it is due: its body works on the state left by taking the entry; none
means that the Entry Engine refuses the key (R95, R97, R117). -/
def State.editAction (s : State) (a : Action) (body : State → Option State) : State :=
  match s.takeEntry (.action a) with
  | some t =>
    match body t with
    | some u => u
    | none => t.keyRefused
  | none => s

/-- The current field, when it is an active ENTRY field (R112 step 1). -/
def Form.entryField (fm : Form) : Option Field :=
  match fm.current with
  | some f => if f.kind = .entry then some f else none
  | none => none

/-- The modified mark and the visit flag set by an edit of a field (R32, R103). -/
def Form.edited (fm : Form) (f : Field) : Form :=
  { fm.mapTag f.tag fun g => { g with modified := true } with visit := true }

/-- The position of a field's last cell. -/
def Field.lastCell (f : Field) : Nat := f.start + (f.length - 1)

/-- The glyphs of a field from the cursor on. -/
def Form.restOfField (fm : Form) (f : Field) : List Byte :=
  (fm.content false f).drop (fm.cursor - f.start)

/-- The glyph of a CHAR placed at the cursor, in overtype or by an insert; none when an insert finds
the last cell not null (R112 step 4). -/
def Form.placeGlyph (fm : Form) (f : Field) (g : Byte) : Option Form :=
  let offset := fm.cursor - f.start
  if !fm.insert then some (fm.writeFrom false f offset [g])
  else
    let rest := fm.restOfField f
    if rest.getLastD nullGlyph = nullGlyph then
      some (fm.writeFrom false f offset (g :: rest.dropLast))
    else none

/-- The advance after a CHAR (R112 step 6, R118). -/
def Form.advance (fm : Form) (insertAtEntry : Bool) (f : Field) : Form :=
  if fm.cursor < f.lastCell then { fm with cursor := fm.cursor + 1 }
  else if f.opts.autoAdvance then fm.moveNext insertAtEntry
  else fm

/-- The body of CHAR (R112). -/
def bodyChar (glyph : Byte) (s : State) : Option State :=
  match s.form.entryField with
  | none => none
  | some f =>
    let g := foldGlyph s.tables.classes f glyph
    if !admits s.tables.classes f g then none
    else
      match s.form.placeGlyph f g with
      | none => none
      | some placed =>
        let clicked := if s.tables.options.keyClick then s.sound .click else s
        some { clicked with
          form := (placed.edited f).advance s.tables.options.insertAtEntry f }

/-- CHAR (R112, R118). -/
def execChar (glyph : Byte) (s : State) : Host.Outcome State Fault Refusal :=
  .next (s.editAction (.char glyph) (bodyChar glyph))

/-- The body of BACKSPACE (R114). -/
def bodyBackspace (s : State) : Option State :=
  match s.form.entryField with
  | none => none
  | some f =>
    if s.form.cursor = f.start then none
    else
      let offset := s.form.cursor - f.start
      let written :=
        s.form.writeFrom false f (offset - 1) (s.form.restOfField f ++ [nullGlyph])
      some { s with form := { written.edited f with cursor := s.form.cursor - 1 } }

/-- BACKSPACE (R114). -/
def execBackspace (s : State) : Host.Outcome State Fault Refusal :=
  .next (s.editAction .backspace bodyBackspace)

/-- The body of DELETE (R114). -/
def bodyDelete (s : State) : Option State :=
  match s.form.entryField with
  | none => none
  | some f =>
    let offset := s.form.cursor - f.start
    let written :=
      s.form.writeFrom false f offset ((s.form.restOfField f).drop 1 ++ [nullGlyph])
    some { s with form := written.edited f }

/-- DELETE (R114). -/
def execDelete (s : State) : Host.Outcome State Fault Refusal :=
  .next (s.editAction .delete bodyDelete)

/-- The body of ERASE-TO-END (R115). -/
def bodyEraseToEnd (s : State) : Option State :=
  match s.form.entryField with
  | none => none
  | some f =>
    let written :=
      s.form.writeFrom false f (s.form.cursor - f.start) (List.replicate f.length nullGlyph)
    some { s with form := written.edited f }

/-- ERASE_TO_END (R115). -/
def execEraseToEnd (s : State) : Host.Outcome State Fault Refusal :=
  .next (s.editAction .eraseToEnd bodyEraseToEnd)

/-- The body of ERASE-FIELD (R115). -/
def bodyEraseField (s : State) : Option State :=
  match s.form.entryField with
  | none => none
  | some f =>
    let written := s.form.writeContent false f (List.replicate f.length nullGlyph)
    some { s with form := { written.edited f with cursor := f.start } }

/-- ERASE_FIELD (R115). -/
def execEraseField (s : State) : Host.Outcome State Fault Refusal :=
  .next (s.editAction .eraseField bodyEraseField)

/-- The body of INSERT-TOGGLE (R113). -/
def bodyInsertToggle (s : State) : Option State :=
  some { s with form := { s.form with insert := !s.form.insert } }

/-- INSERT_TOGGLE (R113). -/
def execInsertToggle (s : State) : Host.Outcome State Fault Refusal :=
  .next (s.editAction .insertToggle bodyInsertToggle)

/-- A step up or down of the current field's value; none when it is refused (R77 to R79, R116). -/
def stepField (up : Bool) (s : State) : Option State :=
  match s.form.entryField with
  | none => none
  | some f =>
    match f.cls with
    | .numeric n =>
      match stepStart n f.length (s.form.content false f) with
      | none => none
      | some v =>
        let w := clampTo n (if up then v + n.step else v - n.step)
        if w = v then some s
        else
          let written := s.form.writeContent false f (canonical n f.length w)
          some { s with
            form := ((written.edited f).setError f.tag none).recomputeNaming [f.tag] }
    | .alpha | .code _ | .none => none

/-- STEP_UP (R77 to R79, R116). -/
def execStepUp (s : State) : Host.Outcome State Fault Refusal :=
  .next (s.editAction .stepUp (stepField true))

/-- STEP_DOWN (R77 to R79, R116). -/
def execStepDown (s : State) : Host.Outcome State Fault Refusal :=
  .next (s.editAction .stepDown (stepField false))

end Sys2Proof.Machine
end

