-- ==== Sys2Proof/Machine/Fields.lean ====
section
/-! DEFINITION. The directives of chapter 2 that act on fields: FIELD, SOURCES, DROP, PUT, UNMARK
(R22 to R36). -/

namespace Sys2Proof.Machine

open Sys2Proof

/-- The active records in the way of a new one: those that share a cell with it and the one that
holds its tag (R23). -/
def Form.overlapped (fm : Form) (f : Field) : List Field :=
  fm.active.filter fun g => g.tag == f.tag || g.sharesCell f

/-- The new record entered in the table after the drop of the records in its way: the first content
of a TALLY or CLOCK field is written, the visit flag is clear when the cursor lies in it, and the
tallies that name it or a dropped record are recomputed (R23, R24, R26, log 19). -/
def Form.define (fm : Form) (second : Nat) (f : Field) : Form :=
  let gone := (fm.overlapped f).map (·.tag)
  let dropped := fm.dropTags gone
  let entered := { dropped with
    active := insertByStart f dropped.active
    visit := dropped.visit && !f.covers dropped.cursor }
  let written :=
    match f.kind with
    | .tally => entered.recomputeTally f.tag
    | .clock => entered.writeClock second false f
    | .entry | .fixed | .live => entered
  written.recomputeNaming (f.tag :: gone)

/-- The body of FIELD (R22, R23). -/
def bodyField (a : FieldArgs) (s : State) : Except DirError State :=
  match fieldRecord a s.stream.writePos with
  | .error e => .error e
  | .ok f =>
    let inTheWay := s.form.overlapped f
    if !s.form.reachable f then .error .window
    else if (s.form.suspendedTag f.tag).isSome then .error .window
    else if inTheWay.any (·.modified) then .error .modified
    else if poolSize ≤ s.form.active.length - inTheWay.length + s.form.suspended.length then
      .error .tableFull
    else .ok { s with form := s.form.define s.clock.second f }

/-- FIELD (R22 to R24). -/
def execField (args : FieldArgs) (s : State) : Host.Outcome State Fault Refusal :=
  .next (s.directive (.field args) (bodyField args))

/-- The body of SOURCES (R31). -/
def bodySources (tally : Byte) (tags : List Byte) (s : State) : Except DirError State :=
  if !tagInRange tally then .error .tag
  else
    match s.form.record tally.toNat with
    | none => .error .noField
    | some (f, _) =>
      if f.kind ≠ .tally then .error .kind
      else if tags = [] ∨ 16 < tags.length then .error .range
      else if !tags.all tagInRange then .error .tag
      else
        .ok { s with
          form := (s.form.mapTag tally.toNat fun g =>
            { g with sources := some (tags.map (·.toNat)) }).recomputeTally tally.toNat }

/-- SOURCES (R31). -/
def execSources (tally : Byte) (tags : List Byte) (s : State) : Host.Outcome State Fault Refusal :=
  .next (s.directive (.sources tally tags) (bodySources tally tags))

/-- The body of DROP (R25, R26). -/
def bodyDrop (tag : Byte) (s : State) : Except DirError State :=
  if !tagInRange tag then .error .tag
  else
    match s.form.record tag.toNat with
    | none => .error .noField
    | some _ =>
      .ok { s with form := (s.form.dropTags [tag.toNat]).recomputeNaming [tag.toNat] }

/-- DROP (R25). -/
def execDrop (tag : Byte) (s : State) : Host.Outcome State Fault Refusal :=
  .next (s.directive (.drop tag) (bodyDrop tag))

/-- The text of a PUT placed into a field: ALPHA and CODE from the first cell on with nulls after,
NUMERIC right-justified behind spaces (R28). -/
def placedText (f : Field) (glyphs : List Byte) : List Byte :=
  let text := glyphs.take f.length
  match f.cls with
  | .numeric _ => List.replicate (f.length - text.length) spaceGlyph ++ text
  | .alpha | .code _ | .none => text ++ List.replicate (f.length - text.length) nullGlyph

/-- The content of a field replaced by a PUT and the field treated after it (R28, R29, R30). -/
def Form.putText (fm : Form) (susp : Bool) (f : Field) (glyphs : List Byte) : Form :=
  let placed := fm.writeContent susp f (placedText f glyphs)
  let checked : Bool := f.kind = .entry || f.kind = .live
  let verdict : Option ErrorKind :=
    match f.cls with
    | .numeric _ => if checked then exitTest f (placed.content susp f) else none
    | .alpha | .code _ | .none => none
  let marked := placed.setError f.tag verdict
  let rewritten := if checked && verdict.isNone then marked.normalise susp f else marked
  let cleared := rewritten.mapTag f.tag fun g => { g with modified := false }
  let left := { cleared with visit := cleared.visit && !(!susp && fm.isCurrent f.tag) }
  left.recomputeNaming [f.tag]

/-- The body of PUT (R27). -/
def bodyPut (tag force : Byte) (glyphs : List Byte) (s : State) : Except DirError State :=
  if !tagInRange tag then .error .tag
  else
    match s.form.record tag.toNat with
    | none => .error .noField
    | some (f, susp) =>
      if f.kind = .tally ∨ f.kind = .clock then .error .kind
      else if f.modified && !force.getLsbD 0 then
        .ok { s with form := s.form.mapTag f.tag fun g => { g with collision := true } }
      else .ok { s with form := s.form.putText susp f glyphs }

/-- PUT (R27 to R30). -/
def execPut (tag force : Byte) (glyphs : List Byte) (s : State) :
    Host.Outcome State Fault Refusal :=
  .next (s.directive (.put tag force glyphs) (bodyPut tag force glyphs))

/-- The modified, collision and alert marks of a record cleared (R36). -/
def Field.unmarked (f : Field) : Field :=
  { f with modified := false, collision := false, alert := none }

/-- The body of UNMARK (R36). -/
def bodyUnmark (tag : Byte) (s : State) : Except DirError State :=
  if tag = 0 then .ok { s with form := s.form.mapRecords Field.unmarked }
  else if lastTag < tag.toNat then .error .tag
  else
    match s.form.record tag.toNat with
    | none => .error .noField
    | some _ => .ok { s with form := s.form.mapTag tag.toNat Field.unmarked }

/-- UNMARK (R36). -/
def execUnmark (tag : Byte) (s : State) : Host.Outcome State Fault Refusal :=
  .next (s.directive (.unmark tag) (bodyUnmark tag))

end Sys2Proof.Machine
end

