-- ==== Sys2Proof/Machine/Keys.lean ====
section
/-! DEFINITION. Arrivals at the key port and the wand port: KEY_BYTE, WAND_BYTE and SCAN_COMPLETE
(R83 to R94, R119 to R121). -/

namespace Sys2Proof.Machine

open Sys2Proof

/-- What the entry state says of an arrival (R92). -/
inductive Verdict where
  | queued
  | refused
  | silent
  deriving DecidableEq, Repr

/-- The first eight rows of R92, by the entry state and the type-ahead option. -/
def arrivalVerdict (e : EntryState) (typeAhead : Bool) : Verdict :=
  match e with
  | .openEntry => .queued
  | .held .openEntry => .queued
  | .held .await => if typeAhead then .queued else .refused
  | .held .fault => .silent
  | .await => if typeAhead then .queued else .refused
  | .fault => .silent

/-- The plane that the modifier state selects (R83). -/
def Input.plane (i : Input) : Nat := if i.alt then 2 else if i.shift then 1 else 0

/-- An entry joins the newest end of the type-ahead queue, or is discarded with OVERFLOW (R88, R92). -/
def State.queueAction (s : State) (a : Action) : State :=
  if s.input.typeAhead.length < typeAheadRoom then
    { s with input := { s.input with typeAhead := s.input.typeAhead ++ [.action a] } }
  else s.sound .overflow

/-- An action other than RESET arrives (R92). -/
def State.actionArrives (s : State) (a : Action) : State :=
  match arrivalVerdict s.input.entry s.tables.options.typeAhead with
  | .queued => s.queueAction a
  | .refused => s.sound .refuse
  | .silent => s

/-- A RESET arrives (R94). -/
def State.resetArrives (s : State) : State :=
  match s.input.entry with
  | .openEntry => s.queueAction .reset
  | .held .openEntry => s.queueAction .reset
  | .held .await => s
  | .held .fault => { s with input := { s.input with entry := .held .openEntry } }
  | .await => s
  | .fault => { s with input := { s.input with entry := .openEntry } }

/-- The key table's entry at a code in the plane selected (R84, R86). -/
def State.translate (s : State) (code : Nat) : Action :=
  s.tables.keys.getD (s.input.plane * 128 + code) .none

/-- A press translated and its action offered (R84). -/
def State.keyPressed (s : State) (code : Nat) : State :=
  match s.translate code with
  | .none => s
  | .reset => s.resetArrives
  | a => s.actionArrives a

/-- A key port byte (R83): the modifiers, another release, or a press. -/
def State.keyByte (s : State) (b : Byte) : State :=
  if b = 0x7C then { s with input := { s.input with shift := true } }
  else if b = 0xFC then { s with input := { s.input with shift := false } }
  else if b = 0x7D then { s with input := { s.input with alt := true } }
  else if b = 0xFD then { s with input := { s.input with alt := false } }
  else if 128 ≤ b.toNat then s
  else s.keyPressed b.toNat

/-- KEY_BYTE (R83); not taken while RESETN is held low. -/
def execKeyByte (b : Byte) (s : State) : Host.Outcome State Fault Refusal :=
  .next (if s.alive then s.keyByte b else s)

/-- A wand byte gathered into the partial scan (R120). -/
def PartialScan.gather (p : PartialScan) (b : Byte) : PartialScan :=
  if 0x20 ≤ b.toNat ∧ b.toNat ≤ 0x7E then
    if p.chars.length < scanLongest then { p with chars := p.chars ++ [b] }
    else { p with overlong := true }
  else { p with bad := true }

/-- The Key Unit allows a scan and the scan queue has room (R93). -/
def State.allowsScan (s : State) : Bool :=
  arrivalVerdict s.input.entry s.tables.options.typeAhead = .queued &&
  s.input.typeAhead.length < typeAheadRoom && s.input.scans.length < scanRoom

/-- The partial scan completed by 0x0D: discarded, accepted with its marker and the accept pulse, or
refused; the assembler is empty after it (R93, R121, log 14). -/
def State.scanCompleted (s : State) : State :=
  let p := s.input.scan
  let emptied := { s with input := { s.input with scan := emptyScan } }
  if p.bad || p.overlong || p.chars.isEmpty then emptied.sound .refuse
  else if s.allowsScan then
    { emptied with
      input := { emptied.input with
        typeAhead := s.input.typeAhead ++ [.marker]
        scans := s.input.scans ++ [p.chars]
        ackLeft := ackUnits } }
  else emptied.sound .refuse

/-- WAND_BYTE (R120); the byte 0x0D completes the scan (R121, log 16). -/
def execWandByte (b : Byte) (s : State) : Host.Outcome State Fault Refusal :=
  .next
    (if !s.alive then s
     else if b = 0x0D then s.scanCompleted
     else { s with input := { s.input with scan := s.input.scan.gather b } })

/-- SCAN_COMPLETE (R121). -/
def execScanComplete (s : State) : Host.Outcome State Fault Refusal :=
  .next (if s.alive then s.scanCompleted else s)

end Sys2Proof.Machine
end

