-- ==== Sys2Proof/Machine/Overlays.lean ====
section
/-! DEFINITION. The pop-up window (chapter 8): OVERLAY and RESTORE. -/

namespace Sys2Proof.Machine

open Sys2Proof

/-- The screen cells of some positions copied into a store (R136 step 3). -/
def copyCells (source : Store) : List Nat → Store → Store
  | [], into => into
  | p :: rest, into => copyCells source rest (writeCell into p (readCell source p))

/-- Some positions written with one cell (R136 step 4). -/
def fillCells (c : Cell) : List Nat → Store → Store
  | [], into => into
  | p :: rest, into => fillCells c rest (writeCell into p c)

/-- The window opened (R136). -/
def Form.openWindow (fm : Form) (w : Window) (style : Nat) : Form :=
  let out := fm.exitProcess
  let suspended := out.active.filter w.touches
  let opened := { out with
    active := out.active.filter fun f => !w.touches f
    overlay := some
      { window := w
        savedCells := copyCells out.cells w.positions []
        savedCursor := out.cursor
        savedHistory := out.history
        suspended := suspended }
    cells := fillCells { glyph := nullGlyph, style := style } w.positions out.cells
    cursor := w.corner
    history := [] }
  opened.recomputeNaming (suspended.map (·.tag))

/-- The window that OVERLAY asks for satisfies the bounds (R135 step 2). -/
def Window.fits (w : Window) : Bool :=
  1 ≤ w.height && w.height ≤ 14 && 1 ≤ w.width && w.width ≤ 60 &&
  w.top + w.height ≤ screenRows && w.left + w.width ≤ screenCols

/-- The body of OVERLAY (R135, R136). -/
def bodyOverlay (top left height width style : Byte) (s : State) : Except DirError State :=
  let w : Window := { top := top.toNat, left := left.toNat, height := height.toNat,
                      width := width.toNat }
  if s.form.overlay.isSome then .error .overlayBusy
  else if !w.fits then .error .window
  else if 15 < style.toNat then .error .range
  else .ok { s with form := s.form.openWindow w style.toNat }

/-- OVERLAY (R135 to R137). -/
def execOverlay (top left height width style : Byte) (s : State) :
    Host.Outcome State Fault Refusal :=
  .next (s.directive (.overlay top left height width style)
    (bodyOverlay top left height width style))

/-- The window closed: the window fields dropped, the saved cells and records returned, the cursor
and history restored and the tallies concerned recomputed once (R142, R143). -/
def Form.closeWindow (fm : Form) (o : Overlay) : Form :=
  let out := fm.exitProcess
  let o' := out.overlay.getD o
  let gone := out.active.filter o'.window.holds
  let staying := out.active.filter fun f => !o'.window.holds f
  let returned := { out with
    cells := copyCells o'.savedCells o'.window.positions out.cells
    active := o'.suspended.foldl (fun l f => insertByStart f l) staying
    overlay := none
    cursor := o'.savedCursor
    history := o'.savedHistory
    visit := false }
  returned.recomputeNaming ((gone ++ o'.suspended).map (·.tag))

/-- The body of RESTORE (R141, R142). -/
def bodyRestore (discard : Byte) (s : State) : Except DirError State :=
  match s.form.overlay with
  | none => .error .noOverlay
  | some o =>
    if !discard.getLsbD 0 && s.form.active.any fun f => o.window.holds f && f.modified then
      .error .modified
    else .ok { s with form := s.form.closeWindow o }

/-- RESTORE (R141 to R144). -/
def execRestore (discard : Byte) (s : State) : Host.Outcome State Fault Refusal :=
  .next (s.directive (.restore discard) (bodyRestore discard))

end Sys2Proof.Machine
end

