-- ==== Sys2Proof/Machine/Receive.lean ====
section
/-! DEFINITION. The Line Unit's receiver and the end of a frame sent (R174 to R177): LINE_CHARACTER,
RECEIVE_GAP, FRAME_SENT and LINE_RETURNS_TO_MARK. -/

namespace Sys2Proof.Machine

open Sys2Proof

/-- The receiver in a state, with the gap timer started afresh (R175). -/
def Line.receiving (l : Line) (r : Receiver) : Line := { l with receiver := r, gapLeft := gapUnits }

/-- The receiver back in HUNT, where gaps are not timed (R175). -/
def Line.hunting (l : Line) : Line := { l with receiver := .hunt, gapLeft := 0 }

/-- The line seen at mark: the line reset detector has the whole 250 ms before it again (R179, log 6). -/
def Line.seenAtMark (l : Line) : Line := { l with spaceLeft := spaceUnits }

/-- A frame fault: the frame in progress is dropped and a FRAME notice queued (R175). -/
def State.frameFault (s : State) : State :=
  State.offer { s with line := s.line.hunting } .frame

/-- A good frame offered to the receive buffers (R176). -/
def State.storeFrame (s : State) (payload : List Byte) : State :=
  if s.line.buffers.length < bufferRoom then
    { s with line := { s.line.hunting with buffers := s.line.buffers ++ [payload] } }
  else State.offer { s with line := s.line.hunting } .overrun

/-- The frame judged by its CRC (R174, R175). -/
def State.judgeFrame (s : State) (payload : List Byte) (high low : Byte) : State :=
  if crc16 (bytes2 payload.length ++ payload) = high ++ low then s.storeFrame payload
  else s.frameFault

/-- A good character in each state of the receiver (R175). -/
def State.goodCharacter (s : State) (b : Byte) : State :=
  match s.line.receiver with
  | .hunt =>
    if b = leadByte then { s with line := s.line.receiving (.length none) } else s
  | .length none => { s with line := s.line.receiving (.length (some b)) }
  | .length (some high) =>
    let n := (high ++ b).toNat
    if n < payloadShortest ∨ payloadLongest < n then s.frameFault
    else { s with line := s.line.receiving (.payload n []) }
  | .payload n bytes =>
    if bytes.length + 1 < n then
      { s with line := s.line.receiving (.payload n (bytes ++ [b])) }
    else { s with line := s.line.receiving (.crc (bytes ++ [b]) none) }
  | .crc payload none => { s with line := s.line.receiving (.crc payload (some b)) }
  | .crc payload (some high) => s.judgeFrame payload high b

/-- A broken character in each state of the receiver (R175). -/
def State.brokenCharacter (s : State) : State :=
  match s.line.receiver with
  | .hunt => s
  | .length _ => s.frameFault
  | .payload _ _ => s.frameFault
  | .crc _ _ => s.frameFault

/-- LINE_CHARACTER (R175): nothing is taken while RESETN is held low (R178), nor before the line has
returned to mark after a line reset (R179). The stop bit of a good character is at mark, so it ends a
space; a broken character leaves the line reset detector running (R173, R179, log 6). -/
def execLineCharacter (c : LineChar) (s : State) : Host.Outcome State Fault Refusal :=
  .next
    (if !s.alive || s.line.atSpace then s
     else
       match c with
       | .good b => State.goodCharacter { s with line := s.line.seenAtMark } b
       | .broken => s.brokenCharacter)

/-- RECEIVE_GAP (R175): due outside HUNT when the 50 ms have passed. -/
def execReceiveGap (s : State) : Host.Outcome State Fault Refusal :=
  .next (if s.line.receiver ≠ .hunt && s.line.gapLeft = 0 then s.frameFault else s)

/-- The frame being sent has gone: the reply buffer is freed when it was the reply's, and the next
frame is chosen (R177). -/
def State.frameGone (s : State) (f : Sending) : State :=
  State.transmit
    { s with
      line := { s.line with
        sending := none
        reply := if f.isReply then none else s.line.reply } }

/-- FRAME_SENT (R177): due when the transmitter is sending. -/
def execFrameSent (s : State) : Host.Outcome State Fault Refusal :=
  .next
    (match s.line.sending with
     | some f => s.frameGone f
     | none => s)

/-- LINE_RETURNS_TO_MARK (R179): the line reset detector is armed again and frames are taken again from
the next lead byte; a further line reset needs another 250 ms at space. -/
def execLineReturnsToMark (s : State) : Host.Outcome State Fault Refusal :=
  .next { s with line := { s.line.seenAtMark with atSpace := false } }

end Sys2Proof.Machine
end

