-- ==== Sys2Proof/Machine/Resets.lean ====
section
/-! DEFINITION. The starts (R178, R179): POWER_UP, RESETN_ASSERT, RESETN_RELEASE, START_END and
LINE_RESET. -/

namespace Sys2Proof.Machine

open Sys2Proof

/-- POWER_UP (R178): all state takes its power-up value and start begins (log 8). -/
def execPowerUp (straps : BitVec 2) (s : State) : Host.Outcome State Fault Refusal :=
  .next (State.powerUp straps s.pending)

/-- RESETN_ASSERT (R178): all state takes its power-up value, any start is abandoned and a frame being
sent is cut off. The start cause and the sampled rate stand until the next start (R159, R173). -/
def execResetnAssert (s : State) : Host.Outcome State Fault Refusal :=
  .next { State.powerUp 0 s.pending with
    line := { lineUnitReset 0 with baud := s.line.baud }
    start := { resetLow := true, running := none, cause := s.start.cause } }

/-- RESETN_RELEASE (R178): due when RESETN is held low; the straps are sampled, the store is cleared
and start begins (log 7). The line reset detector times space from here (R179). -/
def execResetnRelease (straps : BitVec 2) (s : State) : Host.Outcome State Fault Refusal :=
  .next
    (if s.start.resetLow then
      { s with
        form := { s.form with cells := [] }
        line := { s.line with baud := strapBaud straps, spaceLeft := spaceUnits }
        start := { s.start with resetLow := false, running := some .pin } }
     else s)

/-- Start has ended with a cause: the cause is set and its START notice queued; the transmitter and the
Stream Unit run (R178 step 4). -/
def State.startEnded (s : State) (cause : StartCause) : State :=
  State.offer { s with start := { s.start with running := none, cause := cause } } (.start cause)

/-- START_END (R178 step 4): due while a start is under way (log 7). -/
def execStartEnd (s : State) : Host.Outcome State Fault Refusal :=
  .next
    (match s.start.running with
     | some cause => s.startEnded cause
     | none => s)

/-- The staging slot of a routing entry emptied (R123). -/
def Route.unstaged (r : Route) : Route := { r with staged := none }

/-- The line reset taken (R179): what it abandons, empties and clears, and what it keeps; the START
notice with cause LINE goes out from the emptied notice queue (logs 6, 10, 14). -/
def State.lineResetTaken (s : State) : State :=
  State.startEnded
    { s with
      form := formReset
      tables := { s.tables with routes := s.tables.routes.map Route.unstaged }
      input := { inputReset with ackLeft := s.input.ackLeft }
      stream := streamReset
      line := { lineUnitReset 0 with baud := s.line.baud, atSpace := true }
      tone := toneReset
      display := { s.display with row := 0, column := none } }
    .line

/-- LINE_RESET (R179): due when the 250 ms at space have run out, unless RESETN is held low, and once for
one continuous space (log 6). -/
def execLineReset (s : State) : Host.Outcome State Fault Refusal :=
  .next (if s.alive && !s.line.atSpace && s.line.spaceLeft = 0 then s.lineResetTaken else s)

end Sys2Proof.Machine
end

