-- ==== Sys2Proof/Machine/Routing.lean ====
section
/-! DEFINITION. The two-half load of the routing table: ROUTE_MATCH and ROUTE_ACTION (R123 to R125). -/

namespace Sys2Proof.Machine

open Sys2Proof

/-- The routing entry at an index. -/
def Tables.route (t : Tables) (index : Nat) : Route := t.routes.getD index defaultRoute

/-- The tables with one routing entry replaced. -/
def Tables.setRoute (t : Tables) (index : Nat) (r : Route) : Tables :=
  { t with routes := t.routes.set index r }

/-- The body of ROUTE MATCH: the first half staged (R124). -/
def bodyRouteMatch (index : Byte) (lead : List Byte) (shortest longest : Byte) (s : State) :
    Except DirError State :=
  if 15 < index.toNat then .error .range
  else if 6 < lead.length then .error .range
  else if shortest = 0 ∨ scanLongest < longest.toNat ∨ longest.toNat < shortest.toNat then
    .error .range
  else
    let r := s.tables.route index.toNat
    let staged : RouteMatch :=
      { lead := lead, shortest := shortest.toNat, longest := longest.toNat }
    .ok { s with tables := s.tables.setRoute index.toNat { r with staged := some staged } }

/-- ROUTE_MATCH (R124). -/
def execRouteMatch (index : Byte) (lead : List Byte) (shortest longest : Byte) (s : State) :
    Host.Outcome State Fault Refusal :=
  .next (s.directive (.routeMatch index lead shortest longest)
    (bodyRouteMatch index lead shortest longest))

/-- The body of ROUTE ACTION: the entry committed in one step and its slot emptied (R125). -/
def bodyRouteAction (index target strip keep flags key : Byte) (s : State) :
    Except DirError State :=
  let r := s.tables.route index.toNat
  let first := r.staged.getD r.first
  if 15 < index.toNat then .error .range
  else if lastTag < target.toNat then .error .tag
  else if first.lead.length < strip.toNat then .error .range
  else
    match keepModeOf keep with
    | none => .error .range
    | some mode =>
      if 24 < key.toNat then .error .range
      else
        let second : RoutePlace :=
          { target := target.toNat, strip := strip.toNat, keep := mode,
            advance := flags.getLsbD 0, key := key, enable := flags.getLsbD 1 }
        .ok { s with
          tables := s.tables.setRoute index.toNat
            { first := first, second := second, staged := none } }

/-- ROUTE_ACTION (R125). -/
def execRouteAction (index target strip keep flags key : Byte) (s : State) :
    Host.Outcome State Fault Refusal :=
  .next (s.directive (.routeAction index target strip keep flags key)
    (bodyRouteAction index target strip keep flags key))

end Sys2Proof.Machine
end

