-- ==== Sys2Proof/Machine/Submit.lean ====
section
/-! DEFINITION. Submission (chapter 9): the validation sweep, SUBMIT and CANCEL, and the RESET action
taken from the queue. -/

namespace Sys2Proof.Machine

open Sys2Proof

/-- What the sweep finds wrong with a field: the error mark it has, or the one the sweep sets (R149). -/
def Form.sweepFault (fm : Form) (f : Field) : Option ErrorKind :=
  let content := fm.content false f
  match f.errorMark with
  | some e => some e
  | none =>
    if f.opts.mandatory && isEmptyContent content then some .missing
    else
      match f.cls with
      | .alpha | .code _ =>
        if f.opts.fillWhole && isPartial f.length content then some .incomplete else none
      | .numeric _ | .none => none

/-- The first sweep field that fails, in position order (R149). -/
def Form.sweepStop (fm : Form) : Option Field :=
  fm.eligible.find? fun f => (fm.sweepFault f).isSome

/-- The sweep stopped at a field: the mark it sets with the tallies that follow it, and the cursor at
the field's first cell without a push (R149, R150). -/
def Form.sweepRefused (fm : Form) (insertAtEntry : Bool) (f : Field) : Form :=
  let marked :=
    if f.errorMark.isSome then fm
    else (fm.setError f.tag (fm.sweepFault f)).recomputeNaming [f.tag]
  marked.moveTo insertAtEntry false f.start

/-- SUBMIT processing up to its outcome: exit processing and the sweep (R148 steps 2 and 3). The flag
says that the sweep passes; the submission is then built with the stamp (R151 to R154). -/
def State.submitForm (s : State) (key : Byte) : State × Bool :=
  let out := { s with form := s.form.exitProcess }
  match out.form.sweepStop with
  | some f =>
    ({ out with form := out.form.sweepRefused s.tables.options.insertAtEntry f }, false)
  | none => (out.buildReport 0x81 key s.clock, true)

/-- A SUBMIT or CANCEL taken from the queue, which waits there while the reply buffer is BUSY (R95). -/
def State.takeClaim (s : State) (a : Action) : Option State :=
  if s.line.reply.isSome then none else s.takeEntry (.action a)

/-- SUBMIT (R148 to R154). -/
def execSubmit (key : Byte) (s : State) : Host.Outcome State Fault Refusal :=
  .next
    (match s.takeClaim (.submit key) with
     | some t =>
       let done := t.submitForm key
       if done.2 then done.1.submitAccepted else done.1.keyRefused
     | none => s)

/-- CANCEL (R155). -/
def execCancel (s : State) : Host.Outcome State Fault Refusal :=
  .next
    (match s.takeClaim .cancel with
     | some t => (t.claimReply (t.reportBytes 0x81 0xFF t.clock 0 [])).submitAccepted
     | none => s)

/-- RESET taken from the queue: removed with no other effect (R94). -/
def execReset (s : State) : Host.Outcome State Fault Refusal :=
  .next ((s.takeEntry (.action .reset)).getD s)

end Sys2Proof.Machine
end

