-- ==== Sys2Proof/Machine/Scan.lean ====
section
/-! DEFINITION. Scan placement (R126 to R133). -/

namespace Sys2Proof.Machine

open Sys2Proof

/-- A routing entry recognises a scan (R126). -/
def Route.recognises (r : Route) (scan : List Byte) : Bool :=
  r.second.enable && r.first.lead.isPrefixOf scan &&
  r.first.shortest ≤ scan.length && scan.length ≤ r.first.longest

/-- The placement of a scan that no entry recognises (R126). -/
def plainPlace : RoutePlace :=
  { target := 0, strip := 0, keep := .head, advance := false, key := 0, enable := false }

/-- The second half that a scan is placed by: that of the first entry that recognises it (R126). -/
def Tables.matchScan (t : Tables) (scan : List Byte) : RoutePlace :=
  match t.routes.find? (·.recognises scan) with
  | some r => r.second
  | none => plainPlace

/-- The target field of a scan; none when the scan is refused for want of one (R128). -/
def Form.scanTarget (fm : Form) (target : Nat) : Option Field :=
  let found := if target = 0 then fm.current else fm.activeTag target
  match found with
  | some f => if f.kind = .entry && fm.reachable f then some f else none
  | none => none

/-- The characters of a scan that are kept for a target, folded (R129 steps 1 to 3). -/
def keptCharacters (classes : List CharClass) (r : RoutePlace) (f : Field) (scan : List Byte) :
    List Byte :=
  let stripped := scan.drop r.strip
  let kept :=
    match r.keep with
    | .head => stripped.take f.length
    | .tail => stripped.drop (stripped.length - f.length)
  kept.map (foldGlyph classes f)

/-- The candidate text: the kept characters and nulls after them (R129 step 4). -/
def candidateText (f : Field) (kept : List Byte) : List Byte :=
  kept ++ List.replicate (f.length - kept.length) nullGlyph

/-- The candidate passes its class and content tests (R130). -/
def candidatePasses (classes : List CharClass) (f : Field) (kept : List Byte) : Bool :=
  kept.all (admits classes f) && (exitTest f (candidateText f kept)).isNone

/-- A passing candidate placed: leave, write, marks and cursor (R131, R132). -/
def Form.placeScan (fm : Form) (insertAtEntry : Bool) (r : RoutePlace) (f : Field)
    (kept : List Byte) : Form :=
  let entered := if fm.isCurrent f.tag then fm else fm.moveTo insertAtEntry true f.start
  let written := entered.writeContent false f (candidateText f kept)
  let marked := (written.mapTag f.tag fun g => { g with modified := true }).applyExitTest f
  let standing := { marked with visit := false, cursor := f.start }
  if r.advance then standing.moveNext insertAtEntry else standing

/-- SUBMIT processing within a placement; a failing sweep refuses the scan, not a key (R133). -/
def State.submitFromScan (s : State) (key : Byte) : State :=
  let done := s.submitForm key
  if done.2 then done.1.submitAccepted else done.1.scanRefused

/-- A scan placed by its match, on a state from which the marker and the scan have been taken (R128 to
R133). -/
def State.placeScan (s : State) (r : RoutePlace) (scan : List Byte) : State :=
  match s.form.scanTarget r.target with
  | none => s.scanRefused
  | some f =>
    let kept := keptCharacters s.tables.classes r f scan
    if candidatePasses s.tables.classes f kept then
      let placed := State.sound
        { s with form := s.form.placeScan s.tables.options.insertAtEntry r f kept } .good
      if r.key = 0 then placed else placed.submitFromScan r.key
    else s.scanRefused

/-- SCAN_PLACEMENT (R126 to R133): due in OPEN with a marker at the head of the queue; the marker waits
while its match has a submit key and the reply buffer is BUSY (R127). -/
def execScanPlacement (s : State) : Host.Outcome State Fault Refusal :=
  match s.takeEntry .marker, s.input.scans with
  | some t, scan :: rest =>
    let r := s.tables.matchScan scan
    .next
      (if r.key ≠ 0 && s.line.reply.isSome then s
       else State.placeScan { t with input := { t.input with scans := rest } } r scan)
  | _, _ => .next s

end Sys2Proof.Machine
end

