-- ==== Sys2Proof/Machine/Screen.lean ====
section
/-! DEFINITION. Rendering, the display port and the lamps (chapter 1): DISPLAY_ROW_START,
DISPLAY_ROW_END and DRDY_WITHDRAWN, and the cells sent between them. -/

namespace Sys2Proof.Machine

open Sys2Proof

/-- The record that a screen cell belongs to for rendering (R7). -/
def Form.owner (fm : Form) (p : Nat) : Option Field :=
  match fm.fieldAt p with
  | some f => some f
  | none => fm.suspendedAt p

/-- The cell belongs to the current field (R9 case 3). -/
def Form.inCurrent (fm : Form) (p : Nat) : Bool :=
  match fm.fieldAt p, fm.current with
  | some f, some c => f.tag == c.tag
  | _, _ => false

/-- An error mark, or a tally's incomplete or saturated mark, is set (R9 case 2). -/
def Field.showsError (f : Field) : Bool :=
  f.errorMark.isSome || (f.kind = .tally && (f.incomplete || f.saturated))

/-- The number of the style that governs a cell (R9). -/
def Form.governingNumber (fm : Form) (p : Nat) : Nat :=
  let own := (readCell fm.cells p).style
  match fm.owner p with
  | none => own
  | some f =>
    match f.alert with
    | some a => a.style
    | none =>
      if f.showsError then f.error
      else if fm.inCurrent p then f.edit
      else own

/-- An entry of the style table (R4). -/
def Tables.style (t : Tables) (number : Nat) : Style := t.styles.getD number styleZero

/-- The glyph sent for a cell (R8). -/
def State.glyphSent (s : State) (p : Nat) : Byte :=
  let glyph := (readCell s.form.cells p).glyph
  let style := s.tables.style (s.form.governingNumber p)
  if (s.form.owner p).any (·.opts.hidden) then spaceGlyph
  else if glyph = nullGlyph then spaceGlyph
  else if style.blink ∧ s.display.phase = .blanked then spaceGlyph
  else glyph

/-- The cursor is drawn at a position (R10). -/
def State.cursorDrawn (s : State) (p : Nat) : Bool :=
  (s.input.entry = .openEntry || s.input.entry = .fault) && p == s.form.cursor

/-- The intensity code on DATTR1 and DATTR0 (R13). -/
def Intensity.code : Intensity → Nat
  | .normal => 0
  | .bright => 1
  | .dim => 2

/-- The code sent for a cell, the cursor applied (R10, R13). -/
def State.codeSent (s : State) (p : Nat) : BitVec 4 :=
  let style := s.tables.style (s.form.governingNumber p)
  let drawn := s.cursorDrawn p
  let underline := style.underline || (drawn && !s.form.insert)
  let reverse := if drawn && s.form.insert then !style.reverse else style.reverse
  BitVec.ofNat 4
    (style.intensity.code + (if underline then 4 else 0) + (if reverse then 8 else 0))

/-- A cell as it is sent (R8 to R10, R13). -/
def State.renderCell (s : State) (p : Nat) : SentCell :=
  { glyph := s.glyphSent p, code := s.codeSent p }

/-- The row after a row (R11). -/
def nextRow (r : Nat) : Nat := (r + 1) % screenRows

/-- The display port once the cell of a column of its row has gone out: at the next column, or after
column 95 with no row in progress and the row counter advanced (R11 item 3). -/
def Display.cellSent (d : Display) (column : Nat) (cell : SentCell) : Display :=
  let sent := d.sent ++ [cell]
  if column + 1 < screenCols then { d with column := some (column + 1), sent := sent }
  else { d with column := none, row := nextRow d.row, sent := sent }

/-- The next cell of the row in progress sent, rendered as things stand (R11, R12, log 2). -/
def State.sendCell (s : State) : State :=
  match s.display.column with
  | some c =>
    { s with
      display := s.display.cellSent c (s.renderCell (s.display.row * screenCols + c)) }
  | none => s

/-- A number of cells of the row in progress sent. -/
def State.sendCells (s : State) : Nat → State
  | 0 => s
  | n + 1 => s.sendCell.sendCells n

/-- DISPLAY_ROW_START (R11): DRDY is asserted; due when no row is in progress and RESETN is not held
low. DROW marks the start, and the cells of the row are sent from column 0 (logs 2, 15). -/
def execDisplayRowStart (s : State) : Host.Outcome State Fault Refusal :=
  .next
    (match s.alive, s.display.column with
     | true, none =>
       { s with display := { s.display with column := some 0, sent := [], ready := true } }
     | _, _ => s)

/-- DISPLAY_ROW_END (R11): due when a row is in progress; its cells not yet sent go out, column 95 the
last of them, with which the row counter advances (log 15). -/
def execDisplayRowEnd (s : State) : Host.Outcome State Fault Refusal :=
  .next
    (match s.display.column with
     | some c => s.sendCells (screenCols - c)
     | none => s)

/-- DRDY_WITHDRAWN (R11): the port stops; the rest of a row in progress is not sent, and the row counter
does not advance for it. -/
def execDrdyWithdrawn (s : State) : Host.Outcome State Fault Refusal :=
  .next { s with display := { s.display with column := none, ready := false } }

/-! ## Lamps (R14, R15) -/

/-- The WAIT lamp is lit (R14). -/
def State.lampWait (s : State) : Bool :=
  match s.input.entry with
  | .held _ => true
  | .await => true
  | .openEntry => false
  | .fault => false

/-- The FAULT lamp is lit (R14). -/
def State.lampFault (s : State) : Bool := s.input.entry = .fault

/-- The INSERT lamp is lit (R15). -/
def State.lampInsert (s : State) : Bool := s.form.insert

end Sys2Proof.Machine
end

