-- ==== Sys2Proof/Machine/Time.lean ====
section
/-! DEFINITION. Desk time, clock fields, deadlines and tones (chapter 10): the steps BASE_TICK,
MILLISECOND_ADVANCE, BLINK_FLIP and TONE_STEP_END and the directives CLOCK, RATE, DEADLINE,
DEADLINE_OFF and TONE. -/

namespace Sys2Proof.Machine

open Sys2Proof

/-! ## Deadlines (R166 to R169) -/

/-- The deadline entry at an index. -/
def Clock.deadline (c : Clock) (i : Nat) : Deadline := c.deadlines.getD i defaultDeadline

/-- The clock with one deadline entry replaced. -/
def Clock.setDeadline (c : Clock) (i : Nat) (d : Deadline) : Clock :=
  { c with deadlines := c.deadlines.set i d }

/-- An ARMED entry's condition holds against the present desk time (R168 step 2). -/
def Clock.isDue (c : Clock) (d : Deadline) : Bool :=
  d.state = .armed &&
  (match d.day with
   | some day => day < c.day || (day == c.day && d.second ≤ c.second)
   | none => d.second ≤ c.second)

/-- A deadline entry fires (R169). -/
def State.fireDeadline (s : State) (i : Nat) : State :=
  let d := s.clock.deadline i
  let passed := { s with clock := s.clock.setDeadline i { d with state := .passed } }
  let heard := passed.sound .deadline
  let marked :=
    if d.tag = 0 then heard
    else { heard with
      form := heard.form.mapTag d.tag fun f =>
        { f with alert := some { style := d.style, index := i } } }
  if d.notify then marked.offer (.deadline i) else marked

/-- One entry examined in a check (R168 step 2). -/
def State.checkDeadline (s : State) (i : Nat) : State :=
  if s.clock.isDue (s.clock.deadline i) then s.fireDeadline i else s

/-- Daily PASSED entries armed again (R168 step 1). -/
def Clock.rearm (c : Clock) : Clock :=
  { c with
    deadlines := c.deadlines.map fun d =>
      if d.state = .passed ∧ d.day = none then { d with state := .armed } else d }

/-- A check of the deadline table, with the re-arming of a change of day (R168). -/
def State.checkDeadlines (s : State) (dayChanged : Bool) : State :=
  let armed := if dayChanged then { s with clock := s.clock.rearm } else s
  (List.range 4).foldl State.checkDeadline armed

/-! ## Base ticks (R6, R162) -/

/-- Desk time one millisecond later, carried into the second and the day (R162). -/
def Clock.advance (c : Clock) : Clock :=
  if c.millisecond + 1 < millisecondSpan then { c with millisecond := c.millisecond + 1 }
  else if c.second + 1 < secondSpan then { c with millisecond := 0, second := c.second + 1 }
  else { c with millisecond := 0, second := 0, day := (c.day + 1) % daySpan }

/-- Desk time advances by one millisecond; at a change of second the clock fields whose shown value
changes are rewritten and the deadline table is checked (R162, R165, R168). -/
def State.advanceMillisecond (s : State) : State :=
  let c := s.clock.advance
  let t := { s with clock := c }
  if c.second = s.clock.second ∧ c.day = s.clock.day then t
  else
    State.checkDeadlines
      { t with
        form := t.form.writeClocks c.second fun length =>
          clockText length c.second ≠ clockText length s.clock.second }
      (c.day ≠ s.clock.day)

/-- The addend added to the accumulator, with the advance of desk time at a carry (R162). -/
def State.accumulate (s : State) : State :=
  let sum := s.clock.accumulator + s.clock.addend
  if accumulatorSpan ≤ sum then
    State.advanceMillisecond
      { s with clock := { s.clock with accumulator := sum - accumulatorSpan } }
  else { s with clock := { s.clock with accumulator := sum } }

/-- The blink count one further, and the phase flipped when it would reach 1,024 (R6). -/
def Display.blink (d : Display) : Display :=
  if d.blinkCount + 1 < blinkPeriod then { d with blinkCount := d.blinkCount + 1 }
  else
    { d with
      blinkCount := 0
      phase := match d.phase with
        | .shown => .blanked
        | .blanked => .shown }

/-- The chain timer one tick on (R45). -/
def Phase.tick : Phase → Phase
  | .chained left => .chained (left - unitsPerTick)
  | .applying offset paused => .applying offset paused
  | .idle => .idle

/-- The playing tone step one tick on (R170). -/
def Tone.tick (t : Tone) : Tone :=
  { t with playing := t.playing.map fun p => { p with left := p.left - unitsPerTick } }

/-- The gap timer and the line reset detector one tick on (R175, R179). -/
def Line.tick (l : Line) : Line :=
  { l with spaceLeft := l.spaceLeft - unitsPerTick, gapLeft := l.gapLeft - unitsPerTick }

/-- Everything that is counted in crystal time one tick on: the chain timer, the gap timer, the line
reset detector, the tone step, the accept pulse and the blink count (R6, R45, R170, R175, R179, log 5). -/
def State.countTick (s : State) : State :=
  { s with
    stream := { s.stream with phase := s.stream.phase.tick }
    line := s.line.tick
    tone := s.tone.tick
    input := { s.input with ackLeft := s.input.ackLeft - unitsPerTick }
    display := s.display.blink }

/-- A base tick (R6, R162). A deadline that it fires fires within it, before the command that ends a
timer which runs out at the same tick (R168, R172, log 26). -/
def State.tick (s : State) : State := s.countTick.accumulate

/-- The tick carries a millisecond (R162). -/
def State.carries (s : State) : Bool :=
  accumulatorSpan ≤ s.clock.accumulator + s.clock.addend

/-- The tick flips the blink phase (R6). -/
def State.flips (s : State) : Bool := blinkPeriod ≤ s.display.blinkCount + 1

/-- BASE_TICK (R6, R162): the whole tick, with the millisecond and the flip it may bring (log 4). -/
def execBaseTick (s : State) : Host.Outcome State Fault Refusal :=
  .next (if s.alive then s.tick else s)

/-- MILLISECOND_ADVANCE (R162): a base tick whose sum reaches 65,536; it is not due at another (log 4). -/
def execMillisecondAdvance (s : State) : Host.Outcome State Fault Refusal :=
  .next (if s.alive && s.carries then s.tick else s)

/-- BLINK_FLIP (R6): a base tick at which the blink count would reach 1,024; it is not due at another
(log 4). -/
def execBlinkFlip (s : State) : Host.Outcome State Fault Refusal :=
  .next (if s.alive && s.flips then s.tick else s)

/-! ## Clock and deadline directives (R163, R164, R167) -/

/-- The body of CLOCK (R163). -/
def bodyClock (day : Half) (second : Triple) (millisecond : Half) (s : State) :
    Except DirError State :=
  if secondSpan ≤ second.toNat then .error .range
  else if millisecondSpan ≤ millisecond.toNat then .error .range
  else
    let c := { s.clock with
      day := day.toNat, second := second.toNat, millisecond := millisecond.toNat,
      accumulator := 0 }
    .ok (State.checkDeadlines
      { s with clock := c, form := s.form.writeClocks c.second fun _ => true }
      (c.day ≠ s.clock.day))

/-- CLOCK (R163). -/
def execClock (day : Half) (second : Triple) (millisecond : Half) (s : State) :
    Host.Outcome State Fault Refusal :=
  .next (s.directive (.clock day second millisecond) (bodyClock day second millisecond))

/-- The body of RATE (R164). -/
def bodyRate (addend : Half) (s : State) : Except DirError State :=
  .ok { s with clock := { s.clock with addend := addend.toNat } }

/-- RATE (R164). -/
def execRate (addend : Half) (s : State) : Host.Outcome State Fault Refusal :=
  .next (s.directive (.rate addend) (bodyRate addend))

/-- The body of DEADLINE (R167). -/
def bodyDeadline (index flags : Byte) (day : Option Half) (second : Triple) (tag style : Byte)
    (s : State) : Except DirError State :=
  if 3 < index.toNat then .error .range
  else if secondSpan ≤ second.toNat then .error .range
  else if lastTag < tag.toNat then .error .tag
  else if 15 < style.toNat then .error .range
  else
    let d : Deadline :=
      { state := .armed, day := day.map (·.toNat), second := second.toNat, tag := tag.toNat,
        style := style.toNat, notify := flags.getLsbD 1 }
    .ok (State.checkDeadline { s with clock := s.clock.setDeadline index.toNat d } index.toNat)

/-- DEADLINE (R167). -/
def execDeadline (index flags : Byte) (day : Option Half) (second : Triple) (tag style : Byte)
    (s : State) : Host.Outcome State Fault Refusal :=
  .next (s.directive (.deadline index flags day second tag style)
    (bodyDeadline index flags day second tag style))

/-- A record's alert mark cleared when it records a deadline's index (R35). -/
def Field.alertOff (index : Nat) (f : Field) : Field :=
  match f.alert with
  | some a => if a.index = index then { f with alert := none } else f
  | none => f

/-- The body of DEADLINE OFF (R167). -/
def bodyDeadlineOff (index : Byte) (s : State) : Except DirError State :=
  if 3 < index.toNat then .error .range
  else
    .ok { s with
      clock := s.clock.setDeadline index.toNat
        { s.clock.deadline index.toNat with state := .off }
      form := s.form.mapRecords (Field.alertOff index.toNat) }

/-- DEADLINE_OFF (R167). -/
def execDeadlineOff (index : Byte) (s : State) : Host.Outcome State Fault Refusal :=
  .next (s.directive (.deadlineOff index) (bodyDeadlineOff index))

/-! ## Tones (R171) -/

/-- The body of TONE (R171). -/
def bodyTone (steps : List (Byte × Byte)) (s : State) : Except DirError State :=
  if steps = [] ∨ 8 < steps.length then .error .range
  else
    match toneStepsOf steps with
    | none => .error .range
    | some l => .ok (s.sound (.host l))

/-- TONE (R171). -/
def execTone (steps : List (Byte × Byte)) (s : State) : Host.Outcome State Fault Refusal :=
  .next (s.directive (.tone steps) (bodyTone steps))

/-- The end of the step being played: the next step, or the end of the pattern and the start of the
pending one (R171). What begins has its full time: the part of a tick by which the ended step overshot
its own is not taken off (R170, log 25). -/
def Tone.stepEnded (t : Tone) (p : Playing) : Tone :=
  match p.steps.tail with
  | st :: rest => { t with playing := some { p with steps := st :: rest, left := st.time } }
  | [] =>
    match t.pending with
    | some q => { playing := q.begin, pending := none }
    | none => { t with playing := none }

/-- TONE_STEP_END (R171): due when a pattern plays and the time of its step has run out. -/
def execToneStepEnd (s : State) : Host.Outcome State Fault Refusal :=
  match s.tone.playing with
  | some p => .next (if p.left = 0 then { s with tone := s.tone.stepEnded p } else s)
  | none => .next s

end Sys2Proof.Machine
end

