-- ==== Sys2Proof/Machine/Dispatch.lean ====
section
/-! DEFINITION. The dispatch: one arm per command, each one call of its meaning. -/

namespace Sys2Proof.Machine

open Sys2Proof

def exec (i : Instr) (s : State) : Host.Outcome State Fault Refusal :=
  match i with
  | .powerUp straps => Sys2Proof.Machine.execPowerUp straps s
  | .resetnAssert => Sys2Proof.Machine.execResetnAssert s
  | .resetnRelease straps => Sys2Proof.Machine.execResetnRelease straps s
  | .startEnd => Sys2Proof.Machine.execStartEnd s
  | .lineReset => Sys2Proof.Machine.execLineReset s
  | .baseTick => Sys2Proof.Machine.execBaseTick s
  | .millisecondAdvance => Sys2Proof.Machine.execMillisecondAdvance s
  | .blinkFlip => Sys2Proof.Machine.execBlinkFlip s
  | .chainTimeout => Sys2Proof.Machine.execChainTimeout s
  | .lineCharacter c => Sys2Proof.Machine.execLineCharacter c s
  | .receiveGap => Sys2Proof.Machine.execReceiveGap s
  | .frameSent => Sys2Proof.Machine.execFrameSent s
  | .blockTaken => Sys2Proof.Machine.execBlockTaken s
  | .chainContinuation => Sys2Proof.Machine.execChainContinuation s
  | .directiveUnknown code => Sys2Proof.Machine.execDirectiveUnknown code s
  | .setAt row col => Sys2Proof.Machine.execSetAt row col s
  | .write glyphs => Sys2Proof.Machine.execWrite glyphs s
  | .fill glyph count => Sys2Proof.Machine.execFill glyph count s
  | .style number => Sys2Proof.Machine.execStyle number s
  | .erase count => Sys2Proof.Machine.execErase count s
  | .clearForm => Sys2Proof.Machine.execClearForm s
  | .field args => Sys2Proof.Machine.execField args s
  | .sources tally tags => Sys2Proof.Machine.execSources tally tags s
  | .drop tag => Sys2Proof.Machine.execDrop tag s
  | .put tag force glyphs => Sys2Proof.Machine.execPut tag force glyphs s
  | .unmark tag => Sys2Proof.Machine.execUnmark tag s
  | .cursor row col => Sys2Proof.Machine.execCursor row col s
  | .cursorField tag => Sys2Proof.Machine.execCursorField tag s
  | .overlay top left height width style => Sys2Proof.Machine.execOverlay top left height width style s
  | .restore discard => Sys2Proof.Machine.execRestore discard s
  | .table number plane start count entries => Sys2Proof.Machine.execTable number plane start count entries s
  | .routeMatch index lead shortest longest => Sys2Proof.Machine.execRouteMatch index lead shortest longest s
  | .routeAction index target strip keep flags key => Sys2Proof.Machine.execRouteAction index target strip keep flags key s
  | .clock day second millisecond => Sys2Proof.Machine.execClock day second millisecond s
  | .rate addend => Sys2Proof.Machine.execRate addend s
  | .deadline index flags day second tag style => Sys2Proof.Machine.execDeadline index flags day second tag style s
  | .deadlineOff index => Sys2Proof.Machine.execDeadlineOff index s
  | .tone steps => Sys2Proof.Machine.execTone steps s
  | .options flags => Sys2Proof.Machine.execOptions flags s
  | .read selector => Sys2Proof.Machine.execRead selector s
  | .readResume => Sys2Proof.Machine.execReadResume s
  | .keyByte b => Sys2Proof.Machine.execKeyByte b s
  | .wandByte b => Sys2Proof.Machine.execWandByte b s
  | .scanComplete => Sys2Proof.Machine.execScanComplete s
  | .char glyph => Sys2Proof.Machine.execChar glyph s
  | .next => Sys2Proof.Machine.execNext s
  | .prev => Sys2Proof.Machine.execPrev s
  | .newline => Sys2Proof.Machine.execNewline s
  | .home => Sys2Proof.Machine.execHome s
  | .back => Sys2Proof.Machine.execBack s
  | .left => Sys2Proof.Machine.execLeft s
  | .right => Sys2Proof.Machine.execRight s
  | .up => Sys2Proof.Machine.execUp s
  | .down => Sys2Proof.Machine.execDown s
  | .backspace => Sys2Proof.Machine.execBackspace s
  | .delete => Sys2Proof.Machine.execDelete s
  | .eraseToEnd => Sys2Proof.Machine.execEraseToEnd s
  | .eraseField => Sys2Proof.Machine.execEraseField s
  | .insertToggle => Sys2Proof.Machine.execInsertToggle s
  | .stepUp => Sys2Proof.Machine.execStepUp s
  | .stepDown => Sys2Proof.Machine.execStepDown s
  | .submit key => Sys2Proof.Machine.execSubmit key s
  | .cancel => Sys2Proof.Machine.execCancel s
  | .reset => Sys2Proof.Machine.execReset s
  | .scanPlacement => Sys2Proof.Machine.execScanPlacement s
  | .toneStepEnd => Sys2Proof.Machine.execToneStepEnd s
  | .displayRowStart => Sys2Proof.Machine.execDisplayRowStart s
  | .displayRowEnd => Sys2Proof.Machine.execDisplayRowEnd s
  | .drdyWithdrawn => Sys2Proof.Machine.execDrdyWithdrawn s
  | .lineReturnsToMark => Sys2Proof.Machine.execLineReturnsToMark s

end Sys2Proof.Machine
end

