-- ==== Sys2Proof/Machine/Step.lean ====
section
/-! DEFINITION. One step of the block, and the host's way of putting a command in front. -/

namespace Sys2Proof.Machine

open Sys2Proof

/-- One step: the command at the front of the queue runs on the state with the rest of the queue. On
an empty queue the block idles, but for a display row in progress, whose next cell is sent (log 2). -/
def step (s : State) : Host.Outcome State Fault Refusal :=
  match s.pending with
  | [] => .next s.sendCell
  | c :: rest => exec c { s with pending := rest }

/-- The state with the command that a word of the opcode table spells in front of the queue; the table
gives no bits, so no word spells one and the state is unchanged (log 3). -/
def State.withFetchWord (s : State) (nbits w : Nat) : State :=
  match decodeTableWord nbits w with
  | some c => { s with pending := c :: s.pending }
  | none => s

end Sys2Proof.Machine
end

