-- ==== Sys2Proof/Safety.lean ====
section
/-! DEFINITION. What counts as a sound state of the FK340, and the words in which the statements are
made: the laws of the field table, of the queues, of the stores and of the counted quantities, the parts
of the save area, what a check of the deadline table fires, and the values of power-up. -/

namespace Sys2Proof.Machine

open Sys2Proof

/-! ## The field table (R20, R21, R134) -/

/-- The record lies within one row of the screen and covers at least one cell (R17). -/
def Field.placed (f : Field) : Bool :=
  1 ≤ f.length && f.start % screenCols + f.length ≤ screenCols && f.start < cellCount

/-- The extent of the first record ends before that of the second begins. -/
def Field.precedes (f g : Field) : Bool := f.start + f.length ≤ g.start

/-- Two records share no cell (R21). -/
def Field.apart (f g : Field) : Bool := f.precedes g || g.precedes f

/-- Records in position order, no two of them sharing a cell (R20, R21). -/
def inOrder : List Field → Bool
  | [] => true
  | f :: rest => rest.all f.precedes && inOrder rest

/-- No tag is held twice (R20). -/
def tagsDiffer (l : List Field) : Bool := decide ((l.map (·.tag)).Nodup)

/-- What an open overlay adds: the window is inside the bounds of R135; every active record lies wholly
inside the window or shares no cell with it; and one outside it shares no cell with a suspended record
(R137, R138, R143). -/
def Form.windowLaw (fm : Form) : Bool :=
  match fm.overlay with
  | none => true
  | some o =>
    o.window.fits &&
    fm.active.all (fun f => o.window.holds f || !o.window.touches f) &&
    fm.active.all (fun f => o.window.holds f || o.suspended.all f.apart)

/-- The law of the field table (R17, R20, R21, R134). -/
def Form.lawful (fm : Form) : Bool :=
  (fm.active ++ fm.suspended).all Field.placed &&
  inOrder fm.active && inOrder fm.suspended &&
  tagsDiffer (fm.active ++ fm.suspended) &&
  decide (fm.active.length + fm.suspended.length ≤ poolSize) &&
  fm.windowLaw

/-- The table is lawful and the write position is a cell's (R20, R21, R40). -/
def State.tableLaw (s : State) : Bool := s.form.lawful && s.stream.writePos < cellCount

/-- The cursor is at a cell, inside an open window, and so is the saved one of the store (R99, R134). -/
def Form.cursorLaw (fm : Form) : Bool :=
  fm.cursor < cellCount &&
  (match fm.overlay with
   | none => true
   | some o => o.window.contains fm.cursor && o.savedCursor < cellCount)

/-- The modified mark is set on ENTRY records only (R32). -/
def Form.modifiedLaw (fm : Form) : Bool :=
  (fm.active ++ fm.suspended).all fun f => !f.modified || f.kind = .entry

/-- A record without any of its marks: what FIELD defines, and the source list. -/
def Field.definition (f : Field) : Field :=
  { f with
    modified := false, collision := false, errorMark := none, alert := none, incomplete := false
    saturated := false }

/-- The save area but for its cells and its records: the window, the saved cursor and the saved history
(R134, R139). -/
def Form.savedPlace (fm : Form) : Option (Window × Nat × List Nat) :=
  fm.overlay.map fun o => (o.window, o.savedCursor, o.savedHistory)

/-- The saved cell of a position (R134, R139). -/
def Form.savedCell (fm : Form) (p : Nat) : Option Cell :=
  fm.overlay.map fun o => readCell o.savedCells p

/-- The record that holds off or takes a host write at a position (R37, R38). -/
def Form.writeOwner (fm : Form) (p : Nat) : Option Field :=
  match fm.fieldAt p with
  | some f => some f
  | none => fm.suspendedAt p

/-- A host write of the cell is held off (R37, R38). -/
def Form.heldOff (fm : Form) (p : Nat) : Bool := (fm.writeOwner p).any (·.modified)

/-! ## The entry state and the queues (R89, R90) -/

/-- The entry state is HELD. -/
def EntryState.isHeld : EntryState → Bool
  | .held _ => true
  | .openEntry | .await | .fault => false

/-- HELD exactly while the Stream Unit is APPLYING or CHAINED (R90). -/
def State.heldLaw (s : State) : Bool := s.input.entry.isHeld == (s.stream.phase ≠ .idle : Bool)

/-- The scans correspond one for one to the markers, and both queues are within their room; NONE is
never queued (R88, R89). -/
def Input.queueLaw (i : Input) : Bool :=
  i.typeAhead.count .marker == i.scans.length &&
  i.typeAhead.length ≤ typeAheadRoom && i.scans.length ≤ scanRoom &&
  !i.typeAhead.contains (.action .none)

/-! ## The stores (R1, log 23) -/

/-- The screen store and the saved cells are in their canonical form. -/
def Form.storeLaw (fm : Form) : Bool :=
  storeWf fm.cells &&
  (match fm.overlay with
   | none => true
   | some o => storeWf o.savedCells)

/-! ## Counted quantities -/

/-- No two adjacent tags are alike (R110). -/
def noneAdjacent : List Nat → Bool
  | a :: b :: rest => a ≠ b && noneAdjacent (b :: rest)
  | _ => true

/-- A field history as R99 and R110 have it. -/
def historyLaw (l : List Nat) : Bool := l.length ≤ historyRoom && noneAdjacent l

/-- Desk time and the accumulator are within their ranges and there are four deadlines (R161, R166). -/
def Clock.clockLaw (c : Clock) : Bool :=
  c.day < daySpan && c.second < secondSpan && c.millisecond < millisecondSpan &&
  c.accumulator < accumulatorSpan && c.addend < accumulatorSpan && c.deadlines.length == 4

/-- The tables have their sizes and style 0 has its fixed values (R4, R86, R87, R123). -/
def Tables.sizeLaw (t : Tables) : Bool :=
  t.styles.length == 16 && t.styles.head? == some styleZero &&
  t.keys.length == 384 && t.classes.length == 256 && t.routes.length == 16

/-- The counted quantities are within their ranges: desk time, the tables, the histories, the notice
queue, the receive buffers, the partial scan, the blink count, the row counter and the column next to be
sent (R4, R6, R11, R99, R110, R119, R161, R176, R177). -/
def State.rangeLaw (s : State) : Bool :=
  s.clock.clockLaw && s.tables.sizeLaw &&
  historyLaw s.form.history && (s.form.overlay.all fun o => historyLaw o.savedHistory) &&
  s.line.notices.length ≤ noticeRoom && s.line.buffers.length ≤ bufferRoom &&
  s.input.scan.chars.length ≤ scanLongest &&
  s.display.blinkCount < blinkPeriod && s.display.row < screenRows &&
  (s.display.column.all fun c => c < screenCols)

/-- The entry is ARMED when a check comes to its condition: it was before, or it is daily and PASSED and the
day has changed (R168). -/
def Deadline.ready (d : Deadline) (dayChanged : Bool) : Bool :=
  d.state = .armed || (dayChanged && d.state = .passed && d.day.isNone)

/-- The entry fires in a check of the table at a desk time (R168). -/
def Deadline.fires (d : Deadline) (dayChanged : Bool) (day second : Nat) : Bool :=
  d.ready dayChanged &&
  (match d.day with
   | some due => due < day || (due == day && d.second ≤ second)
   | none => d.second ≤ second)

/-- The state of a deadline entry after a check of the table at a desk time (R168, R169). -/
def Deadline.checkedState (d : Deadline) (dayChanged : Bool) (day second : Nat) : DeadlineState :=
  if d.fires dayChanged day second then .passed
  else if d.ready dayChanged then .armed else d.state

/-- The indexes of the entries that fire in a check of the table at a desk time, in order (R168). -/
def Clock.firing (c : Clock) (dayChanged : Bool) (day second : Nat) : List Nat :=
  (List.range 4).filter fun i => (c.deadline i).fires dayChanged day second

/-- A record after some entries have fired: its alert mark is the last that one of them set (R35, R169). -/
def Clock.alerted (c : Clock) (firing : List Nat) (f : Field) : Field :=
  firing.foldl
    (fun g i =>
      let d := c.deadline i
      if d.tag ≠ 0 ∧ g.tag = d.tag then { g with alert := some { style := d.style, index := i } }
      else g)
    f

/-- The tone line after so many entries have fired (R169). -/
def Tone.warned (t : Tone) (firing : List Nat) : Tone :=
  firing.foldl (fun u _ => u.request .deadline) t

/-- The line after some entries have fired: the notices of those that notify, in index order (R169). -/
def State.noticed (s : State) (firing : List Nat) : Line :=
  ((firing.filter fun i => (s.clock.deadline i).notify).foldl
    (fun u i => u.offer (.deadline i)) s).line

/-- Desk time as one number of milliseconds (R161, R162). -/
def Clock.total (c : Clock) : Nat := (c.day * secondSpan + c.second) * millisecondSpan + c.millisecond

/-! ## The values of power-up and pin reset -/

/-- Every value that the spec gives for power-up and pin reset, but for the tables' own entries, the
sampled rate and the start (R3, R6, R11, R20, R40, R59, R83, R88, R90, R99, R119, R122, R134, R147,
R161, R166, R171, R175 to R177), and the 250 ms of the line reset detector (R179, log 5). -/
def State.powerUpValues (s : State) : Prop :=
  (∀ p, readCell s.form.cells p = { glyph := 0, style := 0 }) ∧
  s.form.active = [] ∧ s.form.overlay = none ∧ s.form.cursor = 0 ∧ s.form.insert = false ∧
  s.form.visit = false ∧ s.form.history = [] ∧
  s.tables = tablesReset ∧
  s.tables.options =
    { typeAhead := true, softFaults := false, keyClick := true, insertAtEntry := false } ∧
  s.input.shift = false ∧ s.input.alt = false ∧ s.input.entry = .await ∧
  s.input.typeAhead = [] ∧ s.input.scans = [] ∧
  s.input.scan = { chars := [], bad := false, overlong := false } ∧
  s.stream.phase = .idle ∧ s.stream.writePos = 0 ∧ s.stream.style = 0 ∧ s.stream.lastSeq = 0 ∧
  s.line.spaceLeft = 64000 ∧ s.line.receiver = .hunt ∧ s.line.buffers = [] ∧ s.line.reply = none ∧
  s.line.sending = none ∧ s.line.notices = [] ∧
  s.clock.day = 0 ∧ s.clock.second = 0 ∧ s.clock.millisecond = 0 ∧ s.clock.accumulator = 0 ∧
  s.clock.addend = 32000 ∧
  s.clock.deadlines =
    List.replicate 4
      { state := .off, day := none, second := 0, tag := 0, style := 0, notify := false } ∧
  s.tone.playing = none ∧ s.tone.pending = none ∧
  s.display.blinkCount = 0 ∧ s.display.phase = .shown ∧ s.display.row = 0 ∧
  s.display.column = none

/-! ## Runs of characters and of cells -/

/-- The state after some good characters have been received one after another. -/
def State.receives (s : State) : List Byte → State
  | [] => s
  | b :: rest =>
    match exec (.lineCharacter (.good b)) s with
    | .next t => t.receives rest
    | .fault _ => s
    | .refused _ => s

/-- The places of a run of table entries, and what each place holds after the load: the entry presented
last for it, or what it held (R5, R57). -/
def TableRunLoaded {α : Type} (old new entries : List α) (base size start : Nat)
    (ignored : Nat → Bool) : Prop :=
  new.length = old.length ∧
  (∀ i < entries.length, ignored ((start + i) % size) = false →
    (∀ k < entries.length, i < k → (start + k) % size ≠ (start + i) % size) →
    new[base + (start + i) % size]? = entries[i]?) ∧
  (∀ n, (∀ i < entries.length, ignored ((start + i) % size) = false →
      n ≠ base + (start + i) % size) → new[n]? = old[n]?)

end Sys2Proof.Machine

namespace Sys2Proof

/-- The directive runs exit processing on the current field, whose rewrite is the operator's own change
(R39, R101, R136, R142). -/
def Instr.runsExit : Instr → Bool
  | .cursor _ _ | .cursorField _ | .overlay _ _ _ _ _ | .restore _ => true
  | _ => false

/-- The command changes the form by itself, apart from the host's writes, so that R39 does not speak of
it: an operator action, a scan placement, a reset. -/
def Instr.isOperatorOrReset : Instr → Bool
  | .char _ | .next | .prev | .newline | .home | .back | .left | .right | .up | .down
  | .backspace | .delete | .eraseToEnd | .eraseField | .insertToggle | .stepUp | .stepDown
  | .submit _ | .cancel | .reset | .scanPlacement
  | .powerUp _ | .resetnAssert | .resetnRelease _ | .lineReset => true
  | .startEnd | .baseTick | .millisecondAdvance | .blinkFlip | .chainTimeout
  | .lineCharacter _ | .receiveGap | .frameSent | .blockTaken | .chainContinuation
  | .directiveUnknown _ | .setAt _ _ | .write _ | .fill _ _ | .style _ | .erase _ | .clearForm
  | .field _ | .sources _ _ | .drop _ | .put _ _ _ | .unmark _ | .cursor _ _ | .cursorField _
  | .overlay _ _ _ _ _ | .restore _ | .table _ _ _ _ _ | .routeMatch _ _ _ _
  | .routeAction _ _ _ _ _ _ | .clock _ _ _ | .rate _ | .deadline _ _ _ _ _ _ | .deadlineOff _
  | .tone _ | .options _ | .read _ | .readResume | .keyByte _ | .wandByte _ | .scanComplete
  | .toneStepEnd | .displayRowStart | .displayRowEnd | .drdyWithdrawn
  | .lineReturnsToMark => false

end Sys2Proof
end

