-- ==== Sys2Proof/WellFormed.lean ====
section
/-! DEFINITION. The well-formed commands: the operands agree with the counts and flags of the byte
layouts (R180) and with the row of the table. -/

namespace Sys2Proof

/-- A counted list fits its count byte (R180). -/
def countFits (n : Nat) : Bool := n < 256

/-- The class part is the one the class byte and the limits flag call for (R180). -/
def FieldArgs.partAgrees (a : FieldArgs) : Bool :=
  match a.part with
  | .plain => a.cls ≠ 2 && a.cls ≠ 3
  | .numeric _ _ flag limits _ => a.cls = 2 && limits.isSome == (flag = 1 : Bool)
  | .code _ => a.cls = 3

/-- The operands of a command agree with its layout. -/
def Instr.wellFormed : Instr → Bool
  | .write glyphs => countFits glyphs.length
  | .field a => a.partAgrees
  | .sources _ tags => countFits tags.length
  | .put _ _ glyphs => countFits glyphs.length
  | .table number _ _ count entries => entries.length == count.toNat * entrySize number
  | .routeMatch _ lead _ _ => countFits lead.length
  | .deadline _ flags day _ _ _ => day.isSome == flags.getLsbD 0
  | .tone steps => countFits steps.length
  | .directiveUnknown code => !directiveCodes.contains code
  | .wandByte b => b ≠ 0x0D
  | .submit key => 1 ≤ key.toNat && key.toNat ≤ 24
  | .powerUp _ | .resetnAssert | .resetnRelease _ | .startEnd | .lineReset | .baseTick
  | .millisecondAdvance | .blinkFlip | .chainTimeout | .lineCharacter _ | .receiveGap
  | .frameSent | .blockTaken | .chainContinuation | .setAt _ _ | .fill _ _ | .style _
  | .erase _ | .clearForm | .drop _ | .unmark _ | .cursor _ _ | .cursorField _
  | .overlay _ _ _ _ _ | .restore _ | .routeAction _ _ _ _ _ _ | .clock _ _ _ | .rate _
  | .deadlineOff _ | .options _ | .read _ | .readResume | .keyByte _ | .scanComplete
  | .char _ | .next | .prev | .newline | .home | .back | .left | .right | .up | .down
  | .backspace | .delete | .eraseToEnd | .eraseField | .insertToggle | .stepUp | .stepDown
  | .cancel | .reset | .scanPlacement | .toneStepEnd | .displayRowStart | .displayRowEnd
  | .drdyWithdrawn | .lineReturnsToMark => true

end Sys2Proof
end

