-- ==== Sys2Proof/Certificates/Slice0/Obligations.lean ====
section
/-! DEFINITION. The statements for the provers, in the order of the chapters' paths: the step, the
starts, the line, the stream, the directives, time and tones, arrivals, operator actions, scans, the
display, values, and the laws that every step keeps. -/

open Sys2Proof Sys2Proof.Machine

/-! ## The step -/

/-- The command at the front of the queue runs on the state with the queue's rest. -/
def Obligations.StepRunsFront : Prop :=
  ∀ (c : Instr) (rest : List Instr) (s : State), s.pending = c :: rest →
    step s = exec c { s with pending := rest }

/-- On an empty queue the port sends the next cell of a row in progress, column 95 completing the row and
advancing the row counter; otherwise nothing happens (the model's choice, log 2; R11, R12). -/
def Obligations.EmptyQueueSendsNextCell : Prop :=
  ∀ s : State, s.pending = [] →
    (s.display.column = none → step s = .next s) ∧
    (∀ c, s.display.column = some c → c < 95 →
      step s = .next { s with
        display := { s.display with
          column := some (c + 1)
          sent := s.display.sent ++ [s.renderCell (s.display.row * 96 + c)] } }) ∧
    (s.display.column = some 95 → s.display.row < 28 →
      step s = .next { s with
        display := { s.display with
          column := none
          row := if s.display.row = 27 then 0 else s.display.row + 1
          sent := s.display.sent ++ [s.renderCell (s.display.row * 96 + 95)] } })

/-- Every command answers a next state, and none touches the queue of waiting commands. That a command which
is not due changes nothing, so that it too answers a next state, is the model's choice (log 1), and the
queue is the model's own; the spec has the due ones go on: a refused directive, key or scan ends in the
state that its rule gives (R43, R97, R130). -/
def Obligations.EveryCommandAnswersNext : Prop :=
  ∀ (c : Instr) (s : State), ∃ t : State, exec c s = .next t ∧ t.pending = s.pending

/-! ## Starts and resets -/

/-- The state after reset has every value that the spec gives for power-up, the tables among them
(R3, R4, R6, R20, R40, R59, R83, R86 to R88, R90, R99, R119, R122, R123, R134, R147, R161, R166, R171,
R175 to R177). -/
def Obligations.ResetHasPowerUpValues : Prop :=
  (State.reset.powerUpValues ∧ State.reset.pending = []) ∧
  (tablesReset.keys.take 0x20 =
     [.none, .next, .prev, .left, .right, .up, .down, .home, .backspace, .next, .newline, .back,
      .eraseToEnd, .submit 1, .eraseField, .delete, .insertToggle, .stepUp, .stepDown, .reset,
      .cancel] ++ List.replicate 11 .none ∧
   (∀ c < 128, 0x20 ≤ c → tablesReset.keys.getD c .none =
     if c ≤ 0x7B then .char (BitVec.ofNat 8 c) else .none) ∧
   (∀ c < 128, tablesReset.keys.getD (128 + c) .none =
     if 0x61 ≤ c ∧ c ≤ 0x7A then .char (BitVec.ofNat 8 (c - 0x20))
     else tablesReset.keys.getD c .none) ∧
   (∀ c < 128, tablesReset.keys.getD (256 + c) .none =
     if 0x41 ≤ c ∧ c ≤ 0x58 then .submit (BitVec.ofNat 8 (c - 0x40)) else .none) ∧
   (∀ g < 256, (tablesReset.classes.getD g (defaultClass 0)) =
     { printable := decide (0x20 ≤ g ∧ g ≤ 0x7E)
       digit := decide (0x30 ≤ g ∧ g ≤ 0x39)
       letter := decide (0x41 ≤ g ∧ g ≤ 0x5A ∨ 0x61 ≤ g ∧ g ≤ 0x7A)
       numpunct := decide (g = 0x20 ∨ g = 0x2D ∨ g = 0x2E)
       fold := BitVec.ofNat 8 (if 0x61 ≤ g ∧ g ≤ 0x7A then g - 0x20 else g) }) ∧
   (∀ n < 16, 8 ≤ n → tablesReset.style n =
     { intensity := .normal, underline := false, reverse := false, blink := false }) ∧
   tablesReset.styles.take 8 =
     [⟨.normal, false, false, false⟩, ⟨.bright, false, false, false⟩,
      ⟨.dim, false, false, false⟩, ⟨.normal, true, false, false⟩,
      ⟨.normal, false, true, false⟩, ⟨.bright, false, true, false⟩,
      ⟨.bright, false, false, true⟩, ⟨.normal, true, false, true⟩] ∧
   (∀ i < 16, tablesReset.route i =
     { first := { lead := [], shortest := 1, longest := 48 }
       second := { target := 0, strip := 0, keep := .head, advance := false, key := 0,
                   enable := false }
       staged := none }))


/-- POWER_UP and RESETN_ASSERT: every value that the spec gives for power-up; the rate by the straps; start
under way after power-up, none while RESETN is low. RESETN_RELEASE samples the straps, clears the store and
begins a start, from which the 250 ms of the line reset detector run (in units of 1/256 ms by log 5);
START_END ends the start under way, sets the start cause and queues the START notice (R173, R178, R179;
logs 3, 7, 11). -/
def Obligations.StartsAndPinReset : Prop :=
  ((∀ (straps : BitVec 2) (s : State), ∃ t : State,
     exec (.powerUp straps) s = .next t ∧ t.powerUpValues ∧ t.pending = s.pending ∧
     t.line.baud = [19200, 38400, 57600, 115200].getD straps.toNat 0 ∧
     t.start.resetLow = false ∧ t.start.running = some .power) ∧
   (∀ s : State, ∃ t : State,
     exec .resetnAssert s = .next t ∧ t.powerUpValues ∧ t.pending = s.pending ∧
     t.start.resetLow = true ∧ t.start.running = none)) ∧
  ((∀ (straps : BitVec 2) (s : State), s.start.resetLow = true →
     exec (.resetnRelease straps) s = .next { s with
       form := { s.form with cells := [] }
       line := { s.line with
         baud := [19200, 38400, 57600, 115200].getD straps.toNat 0, spaceLeft := 64000 }
       start := { s.start with resetLow := false, running := some .pin } }) ∧
   (∀ (cause : StartCause) (s : State), s.start.running = some cause →
     exec .startEnd s = .next (State.offer
       { s with start := { s.start with running := none, cause := cause } } (.start cause))))


/-- LINE_RESET, once the 250 ms at space have run out: what it clears, what it keeps, and the START notice
with cause LINE that goes out at once. It does nothing while time is left, while RESETN is held low, or again
in one continuous space; LINE_RETURNS_TO_MARK ends the space, and a further line reset needs another 250 ms
(R178, R179). The model's choices in it: where the 250 ms begin and the space held until the line returns to
mark (log 6), their units of 1/256 ms (log 5), the chain sequence cleared (log 10) and the accept pulse left
running (log 14). -/
def Obligations.LineResetEffect : Prop :=
  (∀ s : State, s.start.resetLow = false → s.line.atSpace = false → s.line.spaceLeft = 0 →
    exec .lineReset s = .next { s with
      form := { cells := [], active := [], overlay := none, cursor := 0, insert := false,
                visit := false, history := [] }
      tables := { s.tables with
        routes := s.tables.routes.map fun r => { r with staged := none } }
      input := { shift := false, alt := false, entry := .await, typeAhead := [], scans := [],
                 scan := { chars := [], bad := false, overlong := false },
                 ackLeft := s.input.ackLeft }
      stream := { phase := .idle, writePos := 0, style := 0, chainSeq := 0, lastSeq := 0 }
      line := { baud := s.line.baud, atSpace := true, spaceLeft := 64000, receiver := .hunt,
                gapLeft := 0, buffers := [], reply := none,
                sending := some { isReply := false, frame := frameOf [0x86, 1, 3] },
                notices := [] }
      tone := { playing := none, pending := none }
      display := { s.display with row := 0, column := none }
      start := { s.start with running := none, cause := .line } }) ∧
  (∀ s : State, s.start.resetLow = true ∨ s.line.atSpace = true ∨ 0 < s.line.spaceLeft →
    exec .lineReset s = .next s) ∧
  (∀ s : State, exec .lineReturnsToMark s =
    .next { s with line := { s.line with atSpace := false, spaceLeft := 64000 } })

/-! ## The line -/

/-- The receiver takes a character by its state; a length outside 3 to 12,288 is a frame fault; a good
frame goes to a free buffer, or is dropped with OVERRUN; a wrong CRC is a frame fault; each ends a space,
so that a line reset needs another 250 ms (R174 to R176, R179; the gap of 50 ms and the 250 ms in units of
1/256 ms by log 5, the end of a space by log 6). -/
def Obligations.ReceiverTakesGoodCharacters : Prop :=
  ∀ (s : State) (b : Byte), s.start.resetLow = false → s.line.atSpace = false →
    let mark : Line := { s.line with spaceLeft := 64000 }
    let go (r : Receiver) : State := { s with line := { mark with receiver := r, gapLeft := 12800 } }
    let hunt : State := { s with line := { mark with receiver := .hunt, gapLeft := 0 } }
    (s.line.receiver = .hunt → exec (.lineCharacter (.good b)) s =
      .next (if b = 0xC5 then go (.length none) else { s with line := mark })) ∧
    (s.line.receiver = .length none → exec (.lineCharacter (.good b)) s =
      .next (go (.length (some b)))) ∧
    (∀ h : Byte, s.line.receiver = .length (some h) →
      let n := 256 * h.toNat + b.toNat
      exec (.lineCharacter (.good b)) s =
        .next (if 3 ≤ n ∧ n ≤ 12288 then go (.payload n []) else hunt.offer .frame)) ∧
    (∀ (n : Nat) (bytes : List Byte), s.line.receiver = .payload n bytes →
      exec (.lineCharacter (.good b)) s =
        .next (go (if bytes.length + 1 < n then .payload n (bytes ++ [b])
                   else .crc (bytes ++ [b]) none))) ∧
    (∀ p : List Byte, s.line.receiver = .crc p none →
      exec (.lineCharacter (.good b)) s = .next (go (.crc p (some b)))) ∧
    (∀ (p : List Byte) (h : Byte), s.line.receiver = .crc p (some h) →
      exec (.lineCharacter (.good b)) s =
        .next
          (if (crc16 (bytes2 p.length ++ p)).toNat ≠ 256 * h.toNat + b.toNat then
            hunt.offer .frame
           else if s.line.buffers.length < 2 then
            { s with
              line := { mark with
                receiver := .hunt, gapLeft := 0, buffers := s.line.buffers ++ [p] } }
           else hunt.offer .overrun))

/-- A broken character or an expired gap outside HUNT is a frame fault: the frame is dropped, a FRAME
notice queued, and the receiver is in HUNT; in HUNT a broken character is discarded; nothing is taken
while RESETN is low or before the line has returned to mark (R175, R178, R179). -/
def Obligations.ReceiverFaults : Prop :=
  (∀ s : State, s.start.resetLow = false → s.line.atSpace = false →
    exec (.lineCharacter .broken) s =
      .next (if s.line.receiver = .hunt then s
        else State.offer { s with line := { s.line with receiver := .hunt, gapLeft := 0 } } .frame)) ∧
  (∀ s : State, s.line.receiver ≠ .hunt → s.line.gapLeft = 0 →
    exec .receiveGap s =
      .next (State.offer { s with line := { s.line with receiver := .hunt, gapLeft := 0 } } .frame)) ∧
  (∀ (s : State) (c : LineChar), s.start.resetLow = true ∨ s.line.atSpace = true →
    exec (.lineCharacter c) s = .next s)

/-- A whole frame received from HUNT with a buffer free: its payload is stored as it was framed, the line
reset detector has its 250 ms before it (logs 5, 6), and nothing else changes (R174 to R176, R179). -/
def Obligations.FrameRoundTrip : Prop :=
  ∀ (s : State) (p : List Byte), s.start.resetLow = false → s.line.atSpace = false →
    s.line.receiver = .hunt → s.line.buffers.length < 2 → 3 ≤ p.length → p.length ≤ 12288 →
    s.receives (frameOf p) =
      { s with
        line := { s.line with
          gapLeft := 0, spaceLeft := 64000, buffers := s.line.buffers ++ [p] } }

/-- A notice or exception joins the queue of 4 or is dropped, and an idle transmitter that runs begins
the oldest at once; FRAME_SENT frees the reply buffer after the reply's frame and chooses the next
frame, notices before the reply (R177). -/
def Obligations.NoticesAndTransmission : Prop :=
  (∀ (s : State) (n : Notice),
    let q := if s.line.notices.length < 4 then s.line.notices ++ [n] else s.line.notices
    (∀ (m : Notice) (rest : List Notice), s.started = true → s.line.sending = none →
      q = m :: rest →
      s.offer n = { s with
        line := { s.line with
          notices := rest, sending := some { isReply := false, frame := frameOf m.payload } } }) ∧
    (s.started = false ∨ s.line.sending ≠ none →
      s.offer n = { s with line := { s.line with notices := q } })) ∧
  (∀ (s : State) (f : Sending), s.started = true → s.line.sending = some f →
    let r := if f.isReply then none else s.line.reply
    (∀ (m : Notice) (rest : List Notice), s.line.notices = m :: rest →
      exec .frameSent s = .next { s with
        line := { s.line with
          notices := rest, reply := r,
          sending := some { isReply := false, frame := frameOf m.payload } } }) ∧
    (∀ p : List Byte, s.line.notices = [] → r = some p →
      exec .frameSent s = .next { s with
        line := { s.line with
          reply := r, sending := some { isReply := true, frame := frameOf p } } }) ∧
    (s.line.notices = [] → r = none →
      exec .frameSent s = .next { s with line := { s.line with reply := none, sending := none } }))

/-! ## The stream -/

/-- BLOCK_TAKEN begins a chain on the oldest waiting block and holds the operator; CHAIN_CONTINUATION
keeps the write context and the return state (R41, R45, R91; an empty list at once by log 9). -/
def Obligations.BlockTaken : Prop :=
  (∀ (s : State) (b : List Byte) (rest : List (List Byte)) (back : ReturnState),
    s.started = true → s.stream.phase = .idle → s.line.buffers = b :: rest →
    s.input.entry = back.entry →
    exec .blockTaken s = .next (State.reachOffset
      { s with
        stream := { phase := .applying 2 none, writePos := 0, style := 0,
                    chainSeq := b.getD 0 0, lastSeq := b.getD 0 0 }
        input := { s.input with entry := .held back } }
      (b.length - 3))) ∧
  (∀ (s : State) (b : List Byte) (rest : List (List Byte)) (left : Nat),
    s.stream.phase = .chained left → s.line.buffers = b :: rest →
    exec .chainContinuation s = .next (State.reachOffset
      { s with
        stream := { s.stream with
          phase := .applying 2 none, chainSeq := b.getD 0 0, lastSeq := b.getD 0 0 } }
      (b.length - 3)))

/-- The offset moves on; at the end of the list the chain byte decides: it continues the chain when its
halves are complements (they add to 15), and otherwise the chain ends with the block's RELEASE flag
(R42, R44, R98; the step in which it is examined by log 9). -/
def Obligations.ChainByteExamined : Prop :=
  ∀ (s : State) (b : List Byte) (rest : List (List Byte)), s.line.buffers = b :: rest →
    (∀ left, 0 < left → s.reachOffset left = { s with
      stream := { s.stream with phase := .applying (b.length - 1 - left) none } }) ∧
    (let c := (b.getLastD 0).toNat
     (c / 16 + c % 16 = 15 → s.reachOffset 0 = { s with
        stream := { s.stream with phase := .chained 512000 }
        line := { s.line with buffers := rest } }) ∧
     (c / 16 + c % 16 ≠ 15 → ∀ back : ReturnState, s.input.entry = .held back →
        s.reachOffset 0 = { s with
          stream := { s.stream with phase := .idle, writePos := 0, style := 0 }
          line := { s.line with buffers := rest }
          input := { s.input with
            entry := if (b.getD 1 0).getLsbD 0 then .openEntry else back.entry } }))

/-- A refused directive stops the block, ends the chain without release and queues an EXCEPTION; an
unknown code is refused with UNKNOWN and every directive cut short with LENGTH; CHAIN_TIMEOUT abandons a
chain whose timer has run out and queues the notice with the chain sequence (R42, R43, R45, R98; a directive cut
short whatever its operands by log 17). -/
def Obligations.ChainAbandoned : Prop :=
  ((∀ (s : State) (e : DirError) (back : ReturnState), s.input.entry = .held back →
     s.refuseDirective e = State.offer
       { s with
         stream := { s.stream with phase := .idle, writePos := 0, style := 0 }
         line := { s.line with buffers := s.line.buffers.tail }
         input := { s.input with entry := back.entry } }
       (.exception s.stream.chainSeq s.offset e)) ∧
   (∀ (s : State) (code : Byte), s.fetch = .unknown code →
     exec (.directiveUnknown code) s = .next (s.refuseDirective .unknown)) ∧
   (∀ (s : State) (d : Instr) (code : Byte), s.fetch = .short code → directiveCode d = some code →
     exec d s = .next (s.refuseDirective .length))) ∧
  (∀ (s : State) (back : ReturnState), s.stream.phase = .chained 0 → s.input.entry = .held back →
     exec .chainTimeout s = .next (State.offer
       { s with
         stream := { s.stream with phase := .idle, writePos := 0, style := 0 }
         input := { s.input with entry := back.entry } }
       (.chainTimeout s.stream.chainSeq)))

/-- Every well-formed directive whose bytes stand at the offset reached is read back as that directive,
with every operand, and the bytes after it are left (R41, R42, R180). -/
def Obligations.DirectiveLayoutRoundTrip : Prop :=
  ∀ (d : Instr) (code : Byte) (rest : List Byte) (s : State) (offset : Nat),
    d.wellFormed = true → directiveCode d = some code →
    s.stream.phase = .applying offset none →
    directiveList s.block offset = directiveBytes d ++ rest →
    s.fetch = .directive d rest.length

/-- READ builds its reply at once in a free buffer, pauses at a busy one, and is refused for an unknown
selector; READ_RESUME builds the reply of a paused READ when the buffer is free (R60, R61). -/
def Obligations.ReadBuildsOrPauses : Prop :=
  (∀ (s : State) (code : Byte) (chosen : Selector) (left : Nat),
    (code, chosen) ∈ [((1 : Byte), Selector.modified), (2, .all), (3, .screen), (4, .status)] →
    s.fetch = .directive (.read code) left →
    (s.line.reply = none →
      exec (.read code) s = .next ((s.buildReadReply chosen).reachOffset left)) ∧
    (s.line.reply ≠ none →
      exec (.read code) s = .next { s with
        stream := { s.stream with phase := .applying s.offset (some chosen) } })) ∧
  (∀ (s : State) (code : Byte) (left : Nat), code = 0 ∨ 4 < code.toNat →
    s.fetch = .directive (.read code) left →
    exec (.read code) s = .next (s.refuseDirective .range)) ∧
  (∀ (s : State) (chosen : Selector) (offset : Nat),
    s.stream.phase = .applying offset (some chosen) → s.line.reply = none →
    exec .readResume s = .next
      ((s.buildReadReply chosen).reachOffset (s.block.length - (offset + 2) - 1)))

/-- What READ builds: the header of a READOUT, the entries of the chosen records, the collision marks
cleared for the records carried; SCREEN and STATUS, byte by byte, change nothing but the reply buffer; a
field entry holds the content to its last glyph that is not null, with spaces for the nulls inside. With
the reply built, a transmitter that runs and is idle begins the oldest notice, or else the reply, at once;
any other goes on as it is (R147, R152, R153, R156 to R159, R177, R180). -/
def Obligations.ReadReplies : Prop :=
  (∀ s : State,
    (s.started = false ∨ s.line.sending ≠ none → s.transmit = s) ∧
    (s.started = true → s.line.sending = none →
      (∀ (n : Notice) (rest : List Notice), s.line.notices = n :: rest →
        s.transmit = { s with
          line := { s.line with
            notices := rest, sending := some { isReply := false, frame := frameOf n.payload } } }) ∧
      (∀ p : List Byte, s.line.notices = [] → s.line.reply = some p →
        s.transmit = { s with
          line := { s.line with sending := some { isReply := true, frame := frameOf p } } }) ∧
      (s.line.notices = [] → s.line.reply = none → s.transmit = s))) ∧
  (∀ s : State,
    let header (count : Nat) : List Byte :=
      [0x82, s.stream.lastSeq, 0, BitVec.ofNat 8 (s.form.cursor / 96),
       BitVec.ofNat 8 (s.form.cursor % 96)] ++ bytes2 s.clock.day ++ bytes3 s.clock.second ++
      bytes2 s.clock.millisecond ++ [BitVec.ofNat 8 count]
    let carried := s.form.active.filter fun f =>
      (f.modified || f.opts.keepInReply) &&
        (match s.form.overlay with
         | some o => o.window.holds f
         | none => true)
    (s.buildReadReply .modified = State.transmit { s with
      form := s.form.mapRecords fun f =>
        if carried.any (·.tag == f.tag) then { f with collision := false } else f
      line := { s.line with
        reply := some (header carried.length ++ carried.flatMap (s.form.fieldEntry false)) } }) ∧
    (s.buildReadReply .all = State.transmit { s with
      form := s.form.mapRecords fun f => { f with collision := false }
      line := { s.line with
        reply := some (header (s.form.active.length + s.form.suspended.length) ++
          s.form.active.flatMap (s.form.fieldEntry false) ++
          s.form.suspended.flatMap (s.form.fieldEntry true)) } }) ∧
    (∃ bytes : List Byte, s.buildReadReply .screen =
        State.transmit { s with line := { s.line with reply := some bytes } } ∧
      bytes.length = 5378 ∧ bytes.take 2 = [0x83, s.stream.lastSeq] ∧
      ∀ p < 2688, bytes.getD (2 + 2 * p) 0 = (readCell s.form.cells p).glyph ∧
        bytes.getD (3 + 2 * p) 0 = BitVec.ofNat 8 (readCell s.form.cells p).style) ∧
    (∃ bytes : List Byte, s.buildReadReply .status =
        State.transmit { s with line := { s.line with reply := some bytes } } ∧
      bytes.length = 26 ∧
      bytes.take 3 =
        [0x84,
         match s.input.entry with
         | .openEntry => 1
         | .held _ => 2
         | .await => 3
         | .fault => 4,
         match s.input.entry with
         | .held .openEntry => 1
         | .held .await => 3
         | .held .fault => 4
         | .openEntry | .await | .fault => 0] ∧
      (let o := s.tables.options
       let options := (bytes.getD 3 0).toNat
       options < 16 ∧ (options % 2 = 1 ↔ o.typeAhead = true) ∧
       (options / 2 % 2 = 1 ↔ o.softFaults = true) ∧ (options / 4 % 2 = 1 ↔ o.keyClick = true) ∧
       (options / 8 = 1 ↔ o.insertAtEntry = true)) ∧
      bytes.getD 4 0 = BitVec.ofNat 8 s.form.active.length ∧
      bytes.getD 5 0 = BitVec.ofNat 8 s.form.suspended.length ∧
      (s.form.overlay = none → (bytes.drop 6).take 5 = [0, 0, 0, 0, 0]) ∧
      (∀ o, s.form.overlay = some o → (bytes.drop 6).take 5 =
        1 :: [o.window.top, o.window.left, o.window.height, o.window.width].map (BitVec.ofNat 8)) ∧
      bytes.getD 11 0 = BitVec.ofNat 8 s.input.typeAhead.length ∧
      bytes.getD 12 0 = BitVec.ofNat 8 s.input.scans.length ∧
      (s.clock.deadlines.length = 4 → ∀ i < 4, (bytes.getD 13 0).toNat / 4 ^ i % 4 =
        match (s.clock.deadline i).state with
        | .off => 0
        | .armed => 1
        | .passed => 2) ∧
      (bytes.drop 14).take 9 =
        bytes2 s.clock.day ++ bytes3 s.clock.second ++ bytes2 s.clock.millisecond ++
          bytes2 s.clock.addend ∧
      bytes.drop 23 =
        [s.stream.lastSeq,
         match s.start.cause with
         | .power => 1
         | .pin => 2
         | .line => 3,
         0x21]) ∧
    (∀ (f : Field) (susp : Bool), ∃ text : List Byte,
      let content := s.form.content susp f
      let wrong : Bool :=
        f.errorMark.isSome || (f.kind = .tally && (f.incomplete || f.saturated))
      s.form.fieldEntry susp f =
        [BitVec.ofNat 8 f.tag,
         BitVec.ofNat 8 ((if f.collision then 1 else 0) + (if wrong then 2 else 0) +
           (if susp then 4 else 0)),
         BitVec.ofNat 8 text.length] ++ text ∧
      text.length ≤ content.length ∧
      (∀ i < text.length, text.getD i 0 = if content.getD i 0 = 0 then 0x20 else content.getD i 0) ∧
      (∀ i, text.length ≤ i → content.getD i 0 = 0) ∧
      (text ≠ [] → content.getD (text.length - 1) 0 ≠ 0)))


/-! ## Directives on the write context, the cells, the cursor, the tables and the options -/

/-- AT: the write position becomes row × 96 + column and nothing else changes, or RANGE (R47). -/
def Obligations.AtSetsWritePosition : Prop :=
  ∀ (s : State) (row col : Byte) (left : Nat), s.fetch = .directive (.setAt row col) left →
    (row.toNat ≤ 27 ∧ col.toNat ≤ 95 →
      exec (.setAt row col) s = .next (State.reachOffset
        { s with stream := { s.stream with writePos := row.toNat * 96 + col.toNat } } left)) ∧
    (27 < row.toNat ∨ 95 < col.toNat →
      exec (.setAt row col) s = .next (s.refuseDirective .range))

/-- STYLE sets the current style, or RANGE; CLEAR FORM clears the form, the insert mode excepted, and the
write context; OPTIONS sets the four options by their bits and RATE the addend, and none of the three is
refused; nothing else changes (R48, R53, R59, R145, R164). -/
def Obligations.StyleClearFormOptionsRate : Prop :=
  (∀ (s : State) (n : Byte) (left : Nat), s.fetch = .directive (.style n) left →
     (n.toNat ≤ 15 →
       exec (.style n) s = .next (State.reachOffset
         { s with stream := { s.stream with style := n.toNat } } left)) ∧
     (15 < n.toNat → exec (.style n) s = .next (s.refuseDirective .range))) ∧
  (∀ (s : State) (left : Nat), s.fetch = .directive .clearForm left →
     exec .clearForm s = .next (State.reachOffset
       { s with
         form := { cells := [], active := [], overlay := none, cursor := 0,
                   insert := s.form.insert, visit := false, history := [] }
         stream := { s.stream with writePos := 0, style := 0 } } left)) ∧
  ((∀ (s : State) (flags : Byte) (left : Nat), s.fetch = .directive (.options flags) left →
     exec (.options flags) s = .next (State.reachOffset
       { s with
         tables := { s.tables with
           options :=
             { typeAhead := flags.toNat % 2 = 1, softFaults := flags.toNat / 2 % 2 = 1
               keyClick := flags.toNat / 4 % 2 = 1, insertAtEntry := flags.toNat / 8 % 2 = 1 } } }
       left)) ∧
   (∀ (s : State) (addend : Half) (left : Nat), s.fetch = .directive (.rate addend) left →
     exec (.rate addend) s = .next (State.reachOffset
       { s with clock := { s.clock with addend := addend.toNat } } left)))


/-- WRITE, FILL and ERASE complete: the cells of the run from the write position on take what the directive
gives, but for those that a modified field holds off, and every other cell stands; a record that holds off
a cell of the run gets the collision mark, and no record changes in anything else; the save area of an open
overlay stands; and of the form so written, the tallies that name a field with a cell written are
recomputed (R2, R37, R38, R49 to R52, R82, R139). -/
def Obligations.HostCellRun : Prop :=
  ∀ (s : State) (d : Instr) (run : List Cell) (left : Nat),
    ((∃ glyphs : List Byte, d = .write glyphs ∧ glyphs ≠ [] ∧
        run = glyphs.map fun g => { glyph := g, style := s.stream.style }) ∨
     (∃ (g : Byte) (n : Half), d = .fill g n ∧ 1 ≤ n.toNat ∧
        run = List.replicate n.toNat { glyph := g, style := s.stream.style }) ∨
     (∃ n : Half, d = .erase n ∧ 1 ≤ n.toNat ∧
        run = List.replicate n.toNat { glyph := 0, style := 0 })) →
    s.form.storeLaw = true → s.fetch = .directive d left → s.stream.writePos < 2688 →
    run.length ≤ 2688 →
    let place (i : Nat) : Nat := (s.stream.writePos + i) % 2688
    let owners := (List.range run.length).filterMap fun i => s.form.writeOwner (place i)
    let holdsOff (f : Field) : Bool := owners.any fun g => g.modified && g.tag == f.tag
    let written := (owners.filter fun g => !g.modified).map (·.tag)
    ∃ cells : Store,
      (∀ i < run.length, readCell cells (place i) =
        if s.form.heldOff (place i) then readCell s.form.cells (place i)
        else run.getD i { glyph := 0, style := 0 }) ∧
      (∀ p, (∀ i < run.length, p ≠ place i) → readCell cells p = readCell s.form.cells p) ∧
      exec d s = .next (State.reachOffset
        { s with
          form := Form.recomputeNaming
            { (s.form.mapRecords fun f =>
                if holdsOff f then { f with collision := true } else f) with cells := cells }
            written
          stream := { s.stream with writePos := place run.length } } left)

/-- CURSOR and CURSOR FIELD place the cursor without a push, confined to an open window, or are refused
with RANGE, WINDOW, TAG or NO_FIELD (R54, R55, R138). -/
def Obligations.HostPlacesCursor : Prop :=
  (∀ (s : State) (row col : Byte) (left : Nat), s.fetch = .directive (.cursor row col) left →
    let p := row.toNat * 96 + col.toNat
    (row.toNat ≤ 27 ∧ col.toNat ≤ 95 → (s.form.overlay = none ∨ s.form.inWindow p = true) →
      exec (.cursor row col) s = .next (State.reachOffset
        { s with form := s.form.moveTo s.tables.options.insertAtEntry false p } left)) ∧
    (row.toNat ≤ 27 ∧ col.toNat ≤ 95 → s.form.overlay ≠ none → s.form.inWindow p = false →
      exec (.cursor row col) s = .next (s.refuseDirective .window)) ∧
    (27 < row.toNat ∨ 95 < col.toNat →
      exec (.cursor row col) s = .next (s.refuseDirective .range))) ∧
  (∀ (s : State) (tag : Byte) (left : Nat), s.fetch = .directive (.cursorField tag) left →
    (tag = 0 ∨ 250 < tag.toNat →
      exec (.cursorField tag) s = .next (s.refuseDirective .tag)) ∧
    (tag ≠ 0 ∧ tag.toNat ≤ 250 → s.form.activeTag tag.toNat = none →
      exec (.cursorField tag) s = .next (s.refuseDirective .noField)) ∧
    (tag ≠ 0 ∧ tag.toNat ≤ 250 → ∀ f, s.form.activeTag tag.toNat = some f →
      exec (.cursorField tag) s = .next
        (if s.form.overlay.all fun o => o.window.holds f then
          State.reachOffset
            { s with form := s.form.moveTo s.tables.options.insertAtEntry false f.start } left
         else s.refuseDirective .window)))

/-- TABLE loads its run of entries into one plane, wrapping within it, style 0 excepted; the other
planes, the other tables and everything else stand (R5, R56, R57). -/
def Obligations.TableLoads : Prop :=
  ∀ (s : State) (plane start count : Byte) (entries : List Byte) (left : Nat),
    s.tables.sizeLaw = true → count ≠ 0 →
    (∀ actions : List Action, plane.toNat < 3 → start.toNat < 128 →
      (pairUp entries).map (fun p => actionOf p.1 p.2) = actions.map some →
      s.fetch = .directive (.table 1 plane start count entries) left →
      ∃ keys, TableRunLoaded s.tables.keys keys actions (plane.toNat * 128) 128 start.toNat
          (fun _ => false) ∧
        exec (.table 1 plane start count entries) s = .next (State.reachOffset
          { s with tables := { s.tables with keys := keys } } left)) ∧
    (plane = 0 → s.fetch = .directive (.table 2 plane start count entries) left →
      ∃ classes, TableRunLoaded s.tables.classes classes
          ((pairUp entries).map fun p => charClassOf p.1 p.2) 0 256 start.toNat (fun _ => false) ∧
        exec (.table 2 plane start count entries) s = .next (State.reachOffset
          { s with tables := { s.tables with classes := classes } } left)) ∧
    (∀ styles : List Style, plane = 0 → start.toNat < 16 →
      entries.map styleOf = styles.map some →
      s.fetch = .directive (.table 3 plane start count entries) left →
      ∃ table, TableRunLoaded s.tables.styles table styles 0 16 start.toNat (fun n => n == 0) ∧
        exec (.table 3 plane start count entries) s = .next (State.reachOffset
          { s with tables := { s.tables with styles := table } } left))

/-! ## Fields -/

/-- FIELD completes with a record that passes its checks: the new record stands with its parts and clear
marks, the records in its way are gone, the others stand as they were; a TALLY begins null and incomplete
and a CLOCK shows desk time, and every other cell stands, as does the save area; and the tallies that name
the new record or a dropped one are recomputed, once at the end (log 19; R23, R24, R26, R82). -/
def Obligations.FieldDefined : Prop :=
  ∀ (s : State) (a : FieldArgs) (f : Field) (left : Nat), s.tableLaw = true →
    s.form.storeLaw = true → s.fetch = .directive (.field a) left → fieldRecord a s.stream.writePos = .ok f →
    s.form.reachable f = true → s.form.suspendedTag f.tag = none →
    (∀ g ∈ s.form.active, g.tag = f.tag ∨ g.apart f = false → g.modified = false) →
    s.form.active.length - (s.form.overlapped f).length + s.form.suspended.length < 120 →
    let gone :=
      (s.form.active.filter fun g => g.tag == f.tag || !g.apart f).map (·.tag)
    ∃ (cells : Store) (active : List Field),
      (∀ g, g ∈ active ↔
        g = { f with incomplete := decide (f.kind = .tally) } ∨
        (g ∈ s.form.active ∧ g.tag ≠ f.tag ∧ g.apart f = true)) ∧
      inOrder active = true ∧ f.definition = f ∧
      (∀ p, readCell cells p =
        if f.covers p = true ∧ f.kind = .tally then { glyph := 0, style := f.normal }
        else if f.covers p = true ∧ f.kind = .clock then
          { glyph := (clockText f.length s.clock.second).getD (p - f.start) 0, style := f.normal }
        else readCell s.form.cells p) ∧
      exec (.field a) s = .next (State.reachOffset
        { s with
          form := Form.recomputeNaming
            { s.form with
              active := active
              cells := cells
              visit := s.form.visit && !f.covers s.form.cursor &&
                !(s.form.current.any fun g => g.tag == f.tag || !g.apart f) }
            (f.tag :: gone) } left)

/-- The argument checks of FIELD refuse in their order: tag, extent, kind and class, numeric part, styles,
next tag; arguments that pass give a record at the write position. FIELD is refused with the error of its
arguments, with WINDOW for an extent outside an open window or a suspended tag, with MODIFIED for an
unsubmitted record in its way, and with TABLE_FULL for a full pool (R22, R23, R64, R65, R180). -/
def Obligations.FieldChecks : Prop :=
  (∀ (a : FieldArgs) (w : Nat),
     let tagBad : Prop := a.tag = 0 ∨ 250 < a.tag.toNat
     let extentBad : Prop := a.length = 0 ∨ 96 < w % 96 + a.length.toNat
     let classBad : Prop :=
       a.kind = 0 ∨ 5 < a.kind.toNat ∨ 3 < a.cls.toNat ∨ (a.kind = 4 ∧ a.cls ≠ 2) ∨
       (a.kind = 5 ∧ (a.cls ≠ 0 ∨ (a.length ≠ 5 ∧ a.length ≠ 8))) ∨
       (a.kind ≠ 5 ∧ a.cls = 0) ∨ (∃ rule : Byte, a.part = .code rule ∧ 2 < rule.toNat)
     let styleBad : Prop := 15 < a.normal.toNat ∨ 15 < a.edit.toNat ∨ 15 < a.error.toNat
     let passes (cls : FieldClass) : Prop :=
       (styleBad → fieldRecord a w = .error .range) ∧
       (¬styleBad → 250 < a.next.toNat → fieldRecord a w = .error .tag) ∧
       (¬styleBad → a.next.toNat ≤ 250 → ∃ f, fieldRecord a w = .ok f ∧
         f.tag = a.tag.toNat ∧ f.start = w ∧ f.length = a.length.toNat ∧
         kindOf a.kind = some f.kind ∧ f.cls = cls ∧ f.opts = fieldOptionsOf a.options ∧
         f.normal = a.normal.toNat ∧ f.edit = a.edit.toNat ∧ f.error = a.error.toNat ∧
         f.next = (if a.next = 0 then none else some a.next.toNat) ∧ f.sources = none ∧
         f.definition = f)
     (tagBad → fieldRecord a w = .error .tag) ∧
     (¬tagBad → extentBad → fieldRecord a w = .error .range) ∧
     (¬tagBad → ¬extentBad → classBad → fieldRecord a w = .error .format) ∧
     (¬tagBad → ¬extentBad → ¬classBad →
       (a.part = .plain → passes (if a.cls = 1 then .alpha else .none)) ∧
       (a.part = .code 0 → passes (.code .none)) ∧
       (a.part = .code 1 → passes (.code .mod10w31)) ∧
       (a.part = .code 2 → passes (.code .mod11)) ∧
       (∀ scale sg flag limits step, a.part = .numeric scale sg flag limits step →
         let d : Int := (a.length.toNat : Int) - sg.toNat - (if scale = 0 then 0 else 1)
         let m : Int := 10 ^ d.toNat - 1
         let formatBad : Prop :=
           1 < sg.toNat ∨ 1 < flag.toNat ∨ 3 < scale.toNat ∨ d < 1 ∨ 9 < d ∨ d < scale.toNat + 1 ∨
           (limits = none ∧ a.kind ≠ 4)
         let lower : Int := (limits.map fun l => l.1.toInt).getD (if sg = 1 then -m else 0)
         let upper : Int := (limits.map fun l => l.2.toInt).getD m
         let rangeBad : Prop :=
           lower < -m ∨ upper < lower ∨ m < upper ∨ (sg = 0 ∧ lower < 0) ∨
           step.toInt < 1 ∨ m < step.toInt
         (formatBad → fieldRecord a w = .error .format) ∧
         (¬formatBad → rangeBad → fieldRecord a w = .error .range) ∧
         (¬formatBad → ¬rangeBad →
           passes (.numeric { scale := scale.toNat, signed := sg = 1, lower := lower,
                              upper := upper, step := step.toInt }))))) ∧
  (∀ (s : State) (a : FieldArgs) (left : Nat), s.fetch = .directive (.field a) left →
     (∀ e, fieldRecord a s.stream.writePos = .error e →
       exec (.field a) s = .next (s.refuseDirective e)) ∧
     (∀ f, fieldRecord a s.stream.writePos = .ok f →
       (s.form.reachable f = false ∨ (s.form.suspendedTag f.tag).isSome →
         exec (.field a) s = .next (s.refuseDirective .window)) ∧
       (s.form.reachable f = true → s.form.suspendedTag f.tag = none →
         (∃ g ∈ s.form.active, (g.tag = f.tag ∨ g.sharesCell f = true) ∧ g.modified = true) →
         exec (.field a) s = .next (s.refuseDirective .modified)) ∧
       (s.form.reachable f = true → s.form.suspendedTag f.tag = none →
         s.form.overlapped f = [] → 120 ≤ s.form.active.length + s.form.suspended.length →
         exec (.field a) s = .next (s.refuseDirective .tableFull))))


/-- SOURCES gives a TALLY record its list and recomputes it, or is refused with TAG, NO_FIELD, KIND,
RANGE or TAG in that order (R31). -/
def Obligations.SourcesGiven : Prop :=
  ∀ (s : State) (tally : Byte) (tags : List Byte) (left : Nat),
    s.fetch = .directive (.sources tally tags) left →
    (tally = 0 ∨ 250 < tally.toNat →
      exec (.sources tally tags) s = .next (s.refuseDirective .tag)) ∧
    (tally ≠ 0 ∧ tally.toNat ≤ 250 →
      (s.form.record tally.toNat = none →
        exec (.sources tally tags) s = .next (s.refuseDirective .noField)) ∧
      (∀ f susp, s.form.record tally.toNat = some (f, susp) →
        (f.kind ≠ .tally → exec (.sources tally tags) s = .next (s.refuseDirective .kind)) ∧
        (f.kind = .tally → tags = [] ∨ 16 < tags.length →
          exec (.sources tally tags) s = .next (s.refuseDirective .range)) ∧
        (f.kind = .tally → tags ≠ [] → tags.length ≤ 16 →
          (∃ t ∈ tags, t = 0 ∨ 250 < t.toNat) →
          exec (.sources tally tags) s = .next (s.refuseDirective .tag)) ∧
        (f.kind = .tally → tags ≠ [] → tags.length ≤ 16 →
          (∀ t ∈ tags, t ≠ 0 ∧ t.toNat ≤ 250) →
          exec (.sources tally tags) s = .next (State.reachOffset
            { s with
              form := (s.form.mapTag tally.toNat fun g =>
                { g with sources := some (tags.map (·.toNat)) }).recomputeTally tally.toNat }
            left))))

/-- What a source gives a tally: a fault when its tag is held by no record, when it is not NUMERIC, not
ENTRY or LIVE, marked in error or does not parse; nothing when it is empty; and otherwise its value
brought to scale 3. A recomputed tally shows the sum of what its sources count, rounded half away from zero
and clamped, in canonical form in its normal style; it is incomplete when a source is a fault and saturated
when the sum was clamped; without a source list it is null and incomplete; no other record and no other
cell, on the screen or saved, changes. A recomputation after a change of some tags recomputes each tally
whose list names one of them, and nothing else (R80 to R82, R139). -/
def Obligations.TallyRecomputed : Prop :=
  (∀ (fm : Form) (t : Nat),
     (fm.record t = none → fm.readSource t = .fault) ∧
     (∀ f susp, fm.record t = some (f, susp) →
       ((∀ n, f.cls ≠ .numeric n) ∨ (f.kind ≠ .entry ∧ f.kind ≠ .live) ∨ f.errorMark ≠ none →
         fm.readSource t = .fault) ∧
       (∀ n, f.cls = .numeric n → f.kind = .entry ∨ f.kind = .live → f.errorMark = none →
         (parseNumber n f.length (fm.content susp f) = .format ∨
           parseNumber n f.length (fm.content susp f) = .range → fm.readSource t = .fault) ∧
         (parseNumber n f.length (fm.content susp f) = .empty → fm.readSource t = .empty) ∧
         (∀ v, parseNumber n f.length (fm.content susp f) = .value v →
           fm.readSource t = .counted (v * 10 ^ (3 - n.scale)))))) ∧
  (∀ (x : Int) (d : Nat), 0 < d →
     let off := (x - roundHalfAway x d * d).natAbs
     2 * off ≤ d ∧ (2 * off = d → x.natAbs ≤ (roundHalfAway x d * d).natAbs)) ∧
  (∀ (fm : Form) (t : Nat) (f : Field) (susp : Bool) (n : NumPart), fm.lawful = true →
     fm.storeLaw = true → fm.record t = some (f, susp) → f.kind = .tally → f.cls = .numeric n →
     let after := fm.recomputeTally t
     (∀ tags, f.sources = some tags →
       let sum : Int := (tags.map fun i =>
         match fm.readSource i with
         | .counted v => v
         | .fault | .empty => 0).sum
       let v := roundHalfAway sum (10 ^ (3 - n.scale))
       let w := if v < n.lower then n.lower else if n.upper < v then n.upper else v
       after.content susp f = (canonical n f.length w).take f.length ∧
       after.record t = some
         ({ f with
            incomplete := tags.any fun i => fm.readSource i = .fault
            saturated := decide (v ≠ w) }, susp)) ∧
     (f.sources = none →
       after.content susp f = List.replicate f.length 0 ∧
       after.record t = some ({ f with incomplete := true, saturated := false }, susp)) ∧
     (∀ p, f.covers p = true → (after.cellOf susp p).style = f.normal) ∧
     (∀ u, u ≠ t → after.record u = fm.record u) ∧
     (∀ p, f.covers p = false ∨ (susp = true ∧ fm.inWindow p = true) →
       readCell after.cells p = readCell fm.cells p) ∧
     (∀ p, f.covers p = false ∨ susp = false ∨ fm.inWindow p = false →
       after.savedCell p = fm.savedCell p) ∧
     after.savedPlace = fm.savedPlace ∧ after.cursor = fm.cursor ∧ after.insert = fm.insert ∧
     after.visit = fm.visit ∧ after.history = fm.history) ∧
  (∀ (fm : Form) (tags : List Nat), fm.lawful = true → fm.storeLaw = true →
     let after := fm.recomputeNaming tags
     let names (f : Field) : Prop :=
       f.kind = .tally ∧ ∃ l, f.sources = some l ∧ ∃ t ∈ l, t ∈ tags
     (∀ t f susp, fm.record t = some (f, susp) →
       let settled := fm.recomputeTally t
       (names f → after.record t = settled.record t ∧
         ∀ p, f.covers p = true → after.cellOf susp p = settled.cellOf susp p) ∧
       (¬names f → after.record t = some (f, susp) ∧
         ∀ p, f.covers p = true → after.cellOf susp p = fm.cellOf susp p)) ∧
     (∀ t, fm.record t = none → after.record t = none) ∧
     (∀ p, (∀ f ∈ fm.active, names f → f.covers p = false) →
       (∀ f ∈ fm.suspended, names f → f.covers p = false ∨ fm.inWindow p = true) →
       readCell after.cells p = readCell fm.cells p) ∧
     (∀ p, (∀ f ∈ fm.suspended, names f → f.covers p = false) ∨ fm.inWindow p = false →
       after.savedCell p = fm.savedCell p) ∧
     after.savedPlace = fm.savedPlace ∧ after.cursor = fm.cursor ∧ after.insert = fm.insert ∧
     after.visit = fm.visit ∧ after.history = fm.history)

/-- DROP frees the record of a tag, active or suspended, and leaves every other record, every cell and the
save area; the visit flag is cleared when the current field goes; then the tallies that name the tag are
recomputed; or TAG or NO_FIELD (R25, R26, R82). -/
def Obligations.DropFrees : Prop :=
  ∀ (s : State) (tag : Byte) (left : Nat), s.fetch = .directive (.drop tag) left →
    (tag = 0 ∨ 250 < tag.toNat → exec (.drop tag) s = .next (s.refuseDirective .tag)) ∧
    (tag ≠ 0 ∧ tag.toNat ≤ 250 → s.form.record tag.toNat = none →
      exec (.drop tag) s = .next (s.refuseDirective .noField)) ∧
    (tag ≠ 0 ∧ tag.toNat ≤ 250 → s.form.record tag.toNat ≠ none →
      let kept (l : List Field) : List Field := l.filter fun f => f.tag ≠ tag.toNat
      exec (.drop tag) s = .next (State.reachOffset
        { s with
          form := Form.recomputeNaming
            { s.form with
              active := kept s.form.active
              overlay := s.form.overlay.map fun o => { o with suspended := kept o.suspended }
              visit := s.form.visit && !s.form.isCurrent tag.toNat }
            [tag.toNat] } left))

/-- UNMARK clears the modified, collision and alert marks of one record, or of every record for tag 0,
and nothing else; or TAG or NO_FIELD (R36). -/
def Obligations.UnmarkClears : Prop :=
  ∀ (s : State) (tag : Byte) (left : Nat), s.fetch = .directive (.unmark tag) left →
    let clear (f : Field) : Field :=
      { f with modified := false, collision := false, alert := none }
    (tag = 0 → exec (.unmark tag) s = .next (State.reachOffset
      { s with form := s.form.mapRecords clear } left)) ∧
    (250 < tag.toNat → exec (.unmark tag) s = .next (s.refuseDirective .tag)) ∧
    (tag ≠ 0 ∧ tag.toNat ≤ 250 → s.form.record tag.toNat = none →
      exec (.unmark tag) s = .next (s.refuseDirective .noField)) ∧
    (tag ≠ 0 ∧ tag.toNat ≤ 250 → s.form.record tag.toNat ≠ none →
      exec (.unmark tag) s = .next (State.reachOffset
        { s with
          form := s.form.mapRecords fun f => if f.tag = tag.toNat then clear f else f } left))

/-- PUT replaces the content of an unmodified field, or of any with force: the text placed by class, the
parse of a NUMERIC ENTRY or LIVE field acted on, the modified mark and the current field's visit flag
cleared, the collision mark kept, and every other record, every cell outside the field and the rest of the
save area left; then the tallies that name it are recomputed (R27 to R30, R82, R139). -/
def Obligations.PutReplaces : Prop :=
  ∀ (s : State) (tag force : Byte) (glyphs : List Byte) (left : Nat) (f : Field) (susp : Bool),
    s.form.lawful = true → s.form.storeLaw = true →
    s.fetch = .directive (.put tag force glyphs) left →
    tag ≠ 0 → tag.toNat ≤ 250 → s.form.record tag.toNat = some (f, susp) →
    f.kind ≠ .tally → f.kind ≠ .clock → f.modified = false ∨ force.getLsbD 0 = true →
    let text := glyphs.take f.length
    let placed : List Byte :=
      match f.cls with
      | .numeric _ => List.replicate (f.length - text.length) 0x20 ++ text
      | .alpha | .code _ | .none => text ++ List.replicate (f.length - text.length) 0
    let outcome : Parsed :=
      match f.cls with
      | .numeric n => if f.kind = .fixed then .empty else parseNumber n f.length placed
      | .alpha | .code _ | .none => .empty
    let treated (g : Field) : Field :=
      if g.tag = tag.toNat then
        { g with
          modified := false
          errorMark :=
            match outcome with
            | .format => some .format
            | .range => some .range
            | .empty | .value _ => none }
      else g
    ∃ put : Form,
      exec (.put tag force glyphs) s = .next (State.reachOffset
        { s with form := put.recomputeNaming [tag.toNat] } left) ∧
      put.content susp f =
        (match f.cls, outcome with
         | .numeric n, .value v =>
           if f.opts.normalise then (canonical n f.length v).take f.length else placed
         | _, _ => placed) ∧
      (∀ p, f.covers p = true → (put.cellOf susp p).style = f.normal) ∧
      put.active = s.form.active.map treated ∧ put.suspended = s.form.suspended.map treated ∧
      (∀ p, f.covers p = false ∨ (susp = true ∧ s.form.inWindow p = true) →
        readCell put.cells p = readCell s.form.cells p) ∧
      (∀ p, f.covers p = false ∨ susp = false ∨ s.form.inWindow p = false →
        put.savedCell p = s.form.savedCell p) ∧
      put.savedPlace = s.form.savedPlace ∧ put.cursor = s.form.cursor ∧
      put.insert = s.form.insert ∧ put.history = s.form.history ∧
      put.visit = (s.form.visit && (susp || !s.form.isCurrent tag.toNat))

/-- A PUT to a modified field without force is held off: the collision mark is set and nothing else
changes; to a TALLY or CLOCK field it is refused with KIND, and by its tag with TAG or NO_FIELD (R27). -/
def Obligations.PutHeldOffOrRefused : Prop :=
  ∀ (s : State) (tag force : Byte) (glyphs : List Byte) (left : Nat),
    s.fetch = .directive (.put tag force glyphs) left →
    (tag = 0 ∨ 250 < tag.toNat →
      exec (.put tag force glyphs) s = .next (s.refuseDirective .tag)) ∧
    (tag ≠ 0 ∧ tag.toNat ≤ 250 →
      (s.form.record tag.toNat = none →
        exec (.put tag force glyphs) s = .next (s.refuseDirective .noField)) ∧
      (∀ f susp, s.form.record tag.toNat = some (f, susp) →
        (f.kind = .tally ∨ f.kind = .clock →
          exec (.put tag force glyphs) s = .next (s.refuseDirective .kind)) ∧
        (f.kind ≠ .tally → f.kind ≠ .clock → f.modified = true → force.getLsbD 0 = false →
          exec (.put tag force glyphs) s = .next (State.reachOffset
            { s with
              form := s.form.mapRecords fun g =>
                if g.tag = f.tag then { g with collision := true } else g } left))))


/-! ## Overlays and routing -/

/-- OVERLAY opens the window after exit processing: the touched records are suspended with their parts
and marks and the others stand, the window cells are saved and filled, the cursor and history are saved, the
cursor goes to the window's corner and the history is empty; outside the window no cell changes; then the
tallies that name a suspended field are recomputed, once at the end (log 19; R82, R136, R137). -/
def Obligations.OverlayOpens : Prop :=
  ∀ (s : State) (top left height width style : Byte) (after : Nat), s.form.lawful = true →
    s.form.storeLaw = true →
    s.fetch = .directive (.overlay top left height width style) after →
    s.form.overlay = none → 1 ≤ height.toNat → height.toNat ≤ 14 → 1 ≤ width.toNat →
    width.toNat ≤ 60 → top.toNat + height.toNat ≤ 28 → left.toNat + width.toNat ≤ 96 →
    style.toNat ≤ 15 →
    let w : Window := { top := top.toNat, left := left.toNat, height := height.toNat,
                        width := width.toNat }
    let out := s.form.exitProcess
    let touched := out.active.filter w.touches
    ∃ cells saved : Store,
      (∀ p, w.contains p = true →
        readCell cells p = { glyph := 0, style := style.toNat } ∧
        readCell saved p = readCell out.cells p) ∧
      (∀ p, w.contains p = false →
        readCell cells p = readCell out.cells p ∧ readCell saved p = { glyph := 0, style := 0 }) ∧
      exec (.overlay top left height width style) s = .next (State.reachOffset
        { s with
          form := Form.recomputeNaming
            { cells := cells
              active := out.active.filter fun f => !w.touches f
              overlay := some
                { window := w, savedCells := saved, savedCursor := s.form.cursor
                  savedHistory := s.form.history, suspended := touched }
              cursor := top.toNat * 96 + left.toNat
              insert := s.form.insert
              visit := out.visit
              history := [] }
            (touched.map (·.tag)) } after)

/-- Refusals: WRITE, FILL and ERASE for their counts; TABLE for table, plane, start index, a count of 0,
a key entry that names no action or a style entry with intensity code 3; OVERLAY with OVERLAY_BUSY, WINDOW
or RANGE, in that order (R5, R49 to R51, R56, R135, R180). -/
def Obligations.CountsTablesWindowsRefused : Prop :=
  (∀ (s : State) (left : Nat),
     (s.fetch = .directive (.write []) left →
       exec (.write []) s = .next (s.refuseDirective .range)) ∧
     (∀ (g : Byte) (n : Half), n.toNat = 0 ∨ 2688 < n.toNat → s.fetch = .directive (.fill g n) left →
       exec (.fill g n) s = .next (s.refuseDirective .range)) ∧
     (∀ n : Half, n.toNat = 0 ∨ 2688 < n.toNat → s.fetch = .directive (.erase n) left →
       exec (.erase n) s = .next (s.refuseDirective .range))) ∧
  (∀ (s : State) (number plane start count : Byte) (entries : List Byte) (left : Nat),
     s.fetch = .directive (.table number plane start count entries) left →
     (number = 0 ∨ 3 < number.toNat ∨
      (number = 1 ∧ (2 < plane.toNat ∨ 127 < start.toNat)) ∨
      (number = 2 ∧ plane ≠ 0) ∨
      (number = 3 ∧ (plane ≠ 0 ∨ 15 < start.toNat)) ∨
      count = 0 ∨
      (number = 1 ∧ ∃ p ∈ pairUp entries, 0x14 < p.1.toNat ∨
         (p.1 = 0x12 ∧ (p.2 = 0 ∨ 24 < p.2.toNat))) ∨
      (number = 3 ∧ ∃ e ∈ entries, e.toNat % 4 = 3)) →
     exec (.table number plane start count entries) s = .next (s.refuseDirective .range)) ∧
  (∀ (s : State) (top left height width style : Byte) (after : Nat),
     s.fetch = .directive (.overlay top left height width style) after →
     let unfit : Prop :=
       height = 0 ∨ 14 < height.toNat ∨ width = 0 ∨ 60 < width.toNat ∨
       28 < top.toNat + height.toNat ∨ 96 < left.toNat + width.toNat
     (s.form.overlay ≠ none →
       exec (.overlay top left height width style) s =
         .next (s.refuseDirective .overlayBusy)) ∧
     (s.form.overlay = none → unfit →
       exec (.overlay top left height width style) s = .next (s.refuseDirective .window)) ∧
     (s.form.overlay = none → ¬unfit → 15 < style.toNat →
       exec (.overlay top left height width style) s = .next (s.refuseDirective .range)))

/-- RESTORE closes the window after exit processing: the window fields are dropped, the saved cells and
records return, marks and all, the cursor and the history are the saved ones and the visit flag is clear;
then the tallies that name a dropped or a returned field are recomputed, once at the end (log 19); or
NO_OVERLAY, or MODIFIED for unsubmitted window fields without discard (R82, R141 to R143). -/
def Obligations.RestoreCloses : Prop :=
  ∀ (s : State) (discard : Byte) (left : Nat), s.fetch = .directive (.restore discard) left →
    (s.form.overlay = none →
      exec (.restore discard) s = .next (s.refuseDirective .noOverlay)) ∧
    (∀ o, s.form.overlay = some o →
      (discard.getLsbD 0 = false →
        (∃ f ∈ s.form.active, o.window.holds f = true ∧ f.modified = true) →
        exec (.restore discard) s = .next (s.refuseDirective .modified)) ∧
      (s.form.lawful = true → s.form.storeLaw = true →
        discard.getLsbD 0 = true ∨
          (∀ f ∈ s.form.active, o.window.holds f = true → f.modified = false) →
        let out := s.form.exitProcess
        ∃ (cells : Store) (active : List Field),
          (∀ p, readCell cells p =
            if o.window.contains p then out.cellOf true p else readCell out.cells p) ∧
          (∀ f, f ∈ active ↔
            (f ∈ out.active ∧ o.window.holds f = false) ∨ f ∈ out.suspended) ∧
          inOrder active = true ∧
          exec (.restore discard) s = .next (State.reachOffset
            { s with
              form := Form.recomputeNaming
                { cells := cells
                  active := active
                  overlay := none
                  cursor := o.savedCursor
                  insert := s.form.insert
                  visit := false
                  history := o.savedHistory }
                ((out.active.filter o.window.holds ++ out.suspended).map (·.tag)) } left)))

/-- ROUTE MATCH stages a first half and leaves the entry; ROUTE ACTION commits the staged or present
first half with the new second half in one step and empties the slot; each is refused by its checks in
order (R124, R125). -/
def Obligations.RoutingLoads : Prop :=
  (∀ (s : State) (index : Byte) (lead : List Byte) (shortest longest : Byte) (left : Nat),
    s.fetch = .directive (.routeMatch index lead shortest longest) left →
    let ok : Prop :=
      index.toNat ≤ 15 ∧ lead.length ≤ 6 ∧ 1 ≤ shortest.toNat ∧ longest.toNat ≤ 48 ∧
      shortest.toNat ≤ longest.toNat
    (ok → exec (.routeMatch index lead shortest longest) s = .next (State.reachOffset
      { s with
        tables := { s.tables with
          routes := s.tables.routes.set index.toNat
            { s.tables.route index.toNat with
              staged := some { lead := lead, shortest := shortest.toNat,
                               longest := longest.toNat } } } } left)) ∧
    (¬ok → exec (.routeMatch index lead shortest longest) s =
      .next (s.refuseDirective .range))) ∧
  (∀ (s : State) (index target strip keep flags key : Byte) (left : Nat),
    s.fetch = .directive (.routeAction index target strip keep flags key) left →
    let r := s.tables.route index.toNat
    let first := r.staged.getD r.first
    (15 < index.toNat → exec (.routeAction index target strip keep flags key) s =
      .next (s.refuseDirective .range)) ∧
    (index.toNat ≤ 15 → 250 < target.toNat →
      exec (.routeAction index target strip keep flags key) s =
        .next (s.refuseDirective .tag)) ∧
    (index.toNat ≤ 15 → target.toNat ≤ 250 →
      first.lead.length < strip.toNat ∨ 1 < keep.toNat ∨ 24 < key.toNat →
      exec (.routeAction index target strip keep flags key) s =
        .next (s.refuseDirective .range)) ∧
    (index.toNat ≤ 15 → target.toNat ≤ 250 → strip.toNat ≤ first.lead.length →
      keep.toNat ≤ 1 → key.toNat ≤ 24 →
      exec (.routeAction index target strip keep flags key) s = .next (State.reachOffset
        { s with
          tables := { s.tables with
            routes := s.tables.routes.set index.toNat
              { first := first
                second :=
                  { target := target.toNat, strip := strip.toNat
                    keep := if keep = 0 then .head else .tail
                    advance := flags.getLsbD 0, key := key, enable := flags.getLsbD 1 }
                staged := none } } } left)))

/-! ## Desk time, deadlines and tones -/

/-- CLOCK sets desk time, clears the accumulator, rewrites every clock field in its normal style and checks
the deadlines against the new time, re-arming daily ones at a change of day; each entry that fires requests its tone, sets
the alert mark of the record of its tag and queues its notice, in index order; the records change in nothing
else; or RANGE (R163, R165, R168, R169). -/
def Obligations.ClockSetsDeskTime : Prop :=
  ∀ (s : State) (day : Half) (second : Triple) (ms : Half) (left : Nat),
    s.fetch = .directive (.clock day second ms) left →
    (86400 ≤ second.toNat ∨ 1000 ≤ ms.toNat →
      exec (.clock day second ms) s = .next (s.refuseDirective .range)) ∧
    (second.toNat < 86400 → ms.toNat < 1000 → s.form.lawful = true → s.rangeLaw = true →
      let dayChanged := decide (day.toNat ≠ s.clock.day)
      let firing := s.clock.firing dayChanged day.toNat second.toNat
      ∃ t : State, exec (.clock day second ms) s = .next (t.reachOffset left) ∧
        t.clock.day = day.toNat ∧ t.clock.second = second.toNat ∧
        t.clock.millisecond = ms.toNat ∧ t.clock.accumulator = 0 ∧
        t.clock.addend = s.clock.addend ∧ t.clock.deadlines.length = 4 ∧
        (∀ i < 4, t.clock.deadline i = { s.clock.deadline i with
          state := (s.clock.deadline i).checkedState dayChanged day.toNat second.toNat }) ∧
        t.tone = s.tone.warned firing ∧ t.line = s.noticed firing ∧
        t.form.active = s.form.active.map (s.clock.alerted firing) ∧
        t.form.suspended = s.form.suspended.map (s.clock.alerted firing) ∧
        (∀ f susp, (f, susp) ∈ s.form.active.map (·, false) ++ s.form.suspended.map (·, true) →
          f.kind = .clock → f.length = 5 ∨ f.length = 8 →
          t.form.content susp f = clockText f.length second.toNat ∧
          ∀ p, f.covers p = true → (t.form.cellOf susp p).style = f.normal) ∧
        (∀ p, (∀ f ∈ s.form.active, f.kind = .clock → f.covers p = false) →
          (∀ f ∈ s.form.suspended, f.kind = .clock →
            f.covers p = false ∨ s.form.inWindow p = true) →
          readCell t.form.cells p = readCell s.form.cells p) ∧
        (∀ p, (∀ f ∈ s.form.suspended, f.kind = .clock → f.covers p = false) →
          t.form.savedCell p = s.form.savedCell p) ∧
        t.form.savedPlace = s.form.savedPlace ∧
        t.form.cursor = s.form.cursor ∧ t.form.insert = s.form.insert ∧
        t.form.visit = s.form.visit ∧ t.form.history = s.form.history ∧
        t.tables = s.tables ∧ t.input = s.input ∧ t.stream = s.stream ∧
        t.display = s.display ∧ t.start = s.start ∧ t.pending = s.pending ∧
        t.line.baud = s.line.baud ∧ t.line.receiver = s.line.receiver ∧
        t.line.buffers = s.line.buffers ∧ t.line.reply = s.line.reply)

/-- DEADLINE replaces its entry, ARMED, and an entry already due fires at once: PASSED, the DEADLINE
tone, the alert mark on the record of its tag, the notice; or RANGE, TAG or RANGE by its checks. DEADLINE
OFF turns its entry off and clears the alert marks that record its index (R35, R167, R169). -/
def Obligations.DeadlineLoads : Prop :=
  (∀ (s : State) (index flags : Byte) (day : Option Half) (second : Triple) (tag style : Byte)
      (left : Nat),
    s.fetch = .directive (.deadline index flags day second tag style) left →
    let run := exec (.deadline index flags day second tag style) s
    let d : Deadline :=
      { state := .armed, day := day.map (·.toNat), second := second.toNat, tag := tag.toNat,
        style := style.toNat, notify := flags.getLsbD 1 }
    let entry (x : Deadline) : Clock :=
      { s.clock with deadlines := s.clock.deadlines.set index.toNat x }
    let due : Prop :=
      match day with
      | some day =>
        day.toNat < s.clock.day ∨ (day.toNat = s.clock.day ∧ second.toNat ≤ s.clock.second)
      | none => second.toNat ≤ s.clock.second
    (3 < index.toNat ∨ 86400 ≤ second.toNat → run = .next (s.refuseDirective .range)) ∧
    (index.toNat ≤ 3 → second.toNat < 86400 → 250 < tag.toNat →
      run = .next (s.refuseDirective .tag)) ∧
    (index.toNat ≤ 3 → second.toNat < 86400 → tag.toNat ≤ 250 → 15 < style.toNat →
      run = .next (s.refuseDirective .range)) ∧
    (index.toNat ≤ 3 → second.toNat < 86400 → tag.toNat ≤ 250 → style.toNat ≤ 15 →
      s.clock.deadlines.length = 4 →
      (¬due → run = .next (State.reachOffset { s with clock := entry d } left)) ∧
      (due →
        let fired : State :=
          { s with
            clock := entry { d with state := .passed }
            tone := s.tone.request .deadline
            form := s.form.mapRecords fun f =>
              if tag ≠ 0 ∧ f.tag = tag.toNat then
                { f with alert := some { style := style.toNat, index := index.toNat } }
              else f }
        run = .next (State.reachOffset
          (if flags.getLsbD 1 then fired.offer (.deadline index.toNat) else fired) left)))) ∧
  (∀ (s : State) (index : Byte) (left : Nat), s.fetch = .directive (.deadlineOff index) left →
    (3 < index.toNat → exec (.deadlineOff index) s = .next (s.refuseDirective .range)) ∧
    (index.toNat ≤ 3 → exec (.deadlineOff index) s = .next (State.reachOffset
      { s with
        clock := { s.clock with
          deadlines := s.clock.deadlines.set index.toNat
            { s.clock.deadline index.toNat with state := .off } }
        form := s.form.mapRecords fun f =>
          if f.alert.any fun a => a.index == index.toNat then { f with alert := none }
          else f } left)))

/-- A base tick: one tick off every running crystal timer, the line reset detector's among them, the blink count one further or the phase
flipped, and the addend added to the accumulator; at a carry desk time is one millisecond later, and at a
change of second the deadlines are checked: each entry that fires requests its tone, sets the alert mark of
the record of its tag and queues its notice, in index order, and the records change in nothing else.
MILLISECOND_ADVANCE is the tick that carries and BLINK_FLIP the one that flips; the deadlines fire before a
step that runs out at the tick ends (logs 4, 5, 26; R6, R45, R162, R168 to R170, R175, R179). -/
def Obligations.BaseTickEffect : Prop :=
  ∀ (s : State) (c : Instr), s.start.resetLow = false → s.rangeLaw = true →
    let sum := s.clock.accumulator + s.clock.addend
    let carry : Bool := 65536 ≤ sum
    let flip : Bool := s.display.blinkCount = 1023
    let ticked : State :=
      { s with
        line := { s.line with
          gapLeft := s.line.gapLeft - 125, spaceLeft := s.line.spaceLeft - 125 }
        tone := { s.tone with
          playing := s.tone.playing.map fun p => { p with left := p.left - 125 } } }
    (c = .baseTick ∨ (c = .millisecondAdvance ∧ carry = true) ∨
      (c = .blinkFlip ∧ flip = true)) →
    ∃ t : State, exec c s = .next t ∧
      t.clock.accumulator = (if carry then sum - 65536 else sum) ∧
      t.clock.addend = s.clock.addend ∧ t.clock.clockLaw = true ∧
      t.clock.total = (s.clock.total + (if carry then 1 else 0)) % (65536 * 86400 * 1000) ∧
      (∀ i < 4, t.clock.deadline i =
        (if s.clock.second = t.clock.second then s.clock.deadline i
         else { s.clock.deadline i with
          state := (s.clock.deadline i).checkedState (decide (t.clock.day ≠ s.clock.day))
            t.clock.day t.clock.second })) ∧
      (let firing :=
        if s.clock.second = t.clock.second then []
        else s.clock.firing (decide (t.clock.day ≠ s.clock.day)) t.clock.day t.clock.second
       t.tone = ticked.tone.warned firing ∧ t.line = ticked.noticed firing ∧
       t.form.active = s.form.active.map (s.clock.alerted firing) ∧
       t.form.suspended = s.form.suspended.map (s.clock.alerted firing)) ∧
      t.display = { s.display with
        blinkCount := if flip then 0 else s.display.blinkCount + 1
        phase := if flip then (if s.display.phase = .shown then .blanked else .shown)
          else s.display.phase } ∧
      t.stream = { s.stream with
        phase := match s.stream.phase with
          | .chained left => .chained (left - 125)
          | .applying offset paused => .applying offset paused
          | .idle => .idle } ∧
      t.line.gapLeft = s.line.gapLeft - 125 ∧ t.line.receiver = s.line.receiver ∧
      t.line.buffers = s.line.buffers ∧ t.line.reply = s.line.reply ∧
      t.input = { s.input with ackLeft := s.input.ackLeft - 125 } ∧
      t.tables = s.tables ∧ t.start = s.start ∧ t.pending = s.pending ∧
      t.form.savedPlace = s.form.savedPlace ∧
      t.form.cursor = s.form.cursor ∧ t.form.insert = s.form.insert ∧
      t.form.visit = s.form.visit ∧ t.form.history = s.form.history ∧
      (s.clock.second = t.clock.second →
        t.form = s.form ∧ t.line.notices = s.line.notices ∧ t.line.sending = s.line.sending ∧
        t.tone = { s.tone with
          playing := s.tone.playing.map fun p => { p with left := p.left - 125 } })

/-- The text of a clock field: hours, minutes and seconds in two digits each. At a change of second, by
BASE_TICK, MILLISECOND_ADVANCE or BLINK_FLIP, a clock field whose text changes shows the new text in its
normal style; a field of length 5 within one minute, and every cell, on the screen or saved, that no clock
field covers, stand; the records change in their alert marks alone (log 4; R162, R165, R169). -/
def Obligations.ClockFieldsFollowTick : Prop :=
  (∀ second < 86400,
     let digits (n : Nat) : List Byte := [BitVec.ofNat 8 (0x30 + n / 10), BitVec.ofNat 8 (0x30 + n % 10)]
     clockText 5 second = digits (second / 3600) ++ [0x3A] ++ digits (second % 3600 / 60) ∧
     clockText 8 second = clockText 5 second ++ [0x3A] ++ digits (second % 60)) ∧
  (∀ (s t : State) (c : Instr), s.start.resetLow = false → s.tableLaw = true → s.rangeLaw = true →
     c ∈ [Instr.baseTick, .millisecondAdvance, .blinkFlip] →
     exec c s = .next t → s.clock.second ≠ t.clock.second →
     (∀ f susp, (f, susp) ∈ s.form.active.map (·, false) ++ s.form.suspended.map (·, true) →
       f.kind = .clock →
       let styled : Prop := ∀ p, f.covers p = true → (t.form.cellOf susp p).style = f.normal
       (f.length = 8 → t.form.content susp f = clockText 8 t.clock.second ∧ styled) ∧
       (f.length = 5 → s.clock.second / 60 ≠ t.clock.second / 60 →
         t.form.content susp f = clockText 5 t.clock.second ∧ styled) ∧
       (f.length = 5 → s.clock.second / 60 = t.clock.second / 60 →
         t.form.content susp f = s.form.content susp f ∧
         ∀ p, f.covers p = true → t.form.cellOf susp p = s.form.cellOf susp p)) ∧
     (∀ p, (∀ f ∈ s.form.active, f.kind = .clock → f.covers p = false) →
       (∀ f ∈ s.form.suspended, f.kind = .clock →
         f.covers p = false ∨ s.form.inWindow p = true) →
       readCell t.form.cells p = readCell s.form.cells p) ∧
     (∀ p, (∀ f ∈ s.form.suspended, f.kind = .clock → f.covers p = false) →
       t.form.savedCell p = s.form.savedCell p) ∧
     (let quiet (f : Field) : Field := { f with alert := none }
      t.form.active.map quiet = s.form.active.map quiet ∧
      t.form.suspended.map quiet = s.form.suspended.map quiet ∧
      t.form.savedPlace = s.form.savedPlace))

/-- The ranks and the steps of the patterns, with their times in units of 1/256 ms. A tone request begins on
a silent line, cuts in on a lower rank and leaves the slot, and otherwise goes to
the slot when that is empty or holds a lower rank, but for CLICK, which is dropped. TONE makes a HOST
request of its steps, in units of 10 ms, or is refused with RANGE for its step count, a pitch code or a
duration of 0; TONE_STEP_END goes to the next step, and after the last to the pending pattern or to
silence, and what begins has its full time (R170 to R172; the units by log 5, the full time by log 25). -/
def Obligations.ToneLine : Prop :=
  (let ms (n : Nat) : Nat := n * 256
   let warble : List ToneStep := [⟨.high, ms 200⟩, ⟨.low, ms 200⟩]
   ([.deadline, .refuse, .overflow, .good, .click] : List Pattern).map Pattern.rank =
     [6, 5, 4, 2, 1] ∧
   Pattern.steps .deadline = warble ++ warble ++ warble ∧
   Pattern.steps .refuse = [⟨.low, ms 150⟩] ∧
   Pattern.steps .overflow = [⟨.low, ms 60⟩, ⟨.silence, ms 60⟩, ⟨.low, ms 60⟩] ∧
   Pattern.steps .good = [⟨.high, ms 40⟩] ∧ Pattern.steps .click = [⟨.high, ms 8⟩] ∧
   ∀ steps : List ToneStep,
     Pattern.rank (.host steps) = 3 ∧ Pattern.steps (.host steps) = steps) ∧
  (∀ (t : Tone) (p : Pattern) (first : ToneStep) (rest : List ToneStep),
     p.steps = first :: rest →
     let begun : Playing := { pattern := p, steps := first :: rest, left := first.time }
     (t.playing = none → t.request p = { t with playing := some begun }) ∧
     (∀ now, t.playing = some now →
       (now.pattern.rank < p.rank → t.request p = { t with playing := some begun }) ∧
       (p.rank ≤ now.pattern.rank → p = .click → t.request p = t) ∧
       (p.rank ≤ now.pattern.rank → p ≠ .click →
         (t.pending = none → t.request p = { t with pending := some p }) ∧
         (∀ q, t.pending = some q → t.request p =
           if q.rank < p.rank then { t with pending := some p } else t)))) ∧
  ((∀ (s : State) (steps : List (Byte × Byte)) (left : Nat),
     s.fetch = .directive (.tone steps) left →
     let ok : Prop := 1 ≤ steps.length ∧ steps.length ≤ 8 ∧ ∀ p ∈ steps, p.1.toNat ≤ 2 ∧ p.2 ≠ 0
     (ok → exec (.tone steps) s = .next (State.reachOffset
       { s with
         tone := s.tone.request (.host (steps.map fun (p : Byte × Byte) =>
           ({ pitch := if p.1 = (0 : Byte) then .silence else if p.1 = (1 : Byte) then .low else .high
              time := p.2.toNat * 2560 } : ToneStep))) } left)) ∧
     (¬ok → exec (.tone steps) s = .next (s.refuseDirective .range))) ∧
   (∀ (s : State) (p : Playing) (done : ToneStep), s.tone.playing = some p → p.left = 0 →
     (∀ st rest, p.steps = done :: st :: rest →
       exec .toneStepEnd s = .next { s with
         tone := { s.tone with
           playing := some { p with steps := st :: rest, left := st.time } } }) ∧
     (p.steps = [done] → s.tone.pending = none →
       exec .toneStepEnd s = .next { s with tone := { playing := none, pending := none } }) ∧
     (∀ q st rest, p.steps = [done] → s.tone.pending = some q → q.steps = st :: rest →
       exec .toneStepEnd s = .next { s with
         tone := { playing := some { pattern := q, steps := st :: rest, left := st.time }
                   pending := none } })))

/-! ## Arrivals -/

/-- KEY_BYTE: the modifier bytes, other releases ignored, and a press translated through the plane the
modifiers select; what becomes of the action by the entry state and the type-ahead option, with the full
queue's OVERFLOW, and what becomes of RESET (R83, R84, R92, R94). -/
def Obligations.KeyBytes : Prop :=
  ∀ s : State, s.start.resetLow = false →
    (exec (.keyByte 0x7C) s = .next { s with input := { s.input with shift := true } }) ∧
    (exec (.keyByte 0xFC) s = .next { s with input := { s.input with shift := false } }) ∧
    (exec (.keyByte 0x7D) s = .next { s with input := { s.input with alt := true } }) ∧
    (exec (.keyByte 0xFD) s = .next { s with input := { s.input with alt := false } }) ∧
    (∀ b : Byte, 128 ≤ b.toNat → b ≠ 0xFC → b ≠ 0xFD → exec (.keyByte b) s = .next s) ∧
    (∀ (b : Byte) (a : Action), b.toNat < 128 → b ≠ 0x7C → b ≠ 0x7D →
      s.tables.keys.getD
        ((if s.input.alt then 256 else if s.input.shift then 128 else 0) + b.toNat) .none = a →
      let queued : State :=
        if s.input.typeAhead.length < 32 then
          { s with input := { s.input with typeAhead := s.input.typeAhead ++ [.action a] } }
        else { s with tone := s.tone.request .overflow }
      let refused : State := { s with tone := s.tone.request .refuse }
      let e := s.input.entry
      (a = .none → exec (.keyByte b) s = .next s) ∧
      (a ≠ .none → e = .openEntry ∨ e = .held .openEntry → exec (.keyByte b) s = .next queued) ∧
      (a ≠ .none → a ≠ .reset → e = .await ∨ e = .held .await →
        exec (.keyByte b) s = .next (if s.tables.options.typeAhead then queued else refused)) ∧
      (a ≠ .none → a ≠ .reset → e = .fault ∨ e = .held .fault → exec (.keyByte b) s = .next s) ∧
      (a = .reset → e = .await ∨ e = .held .await → exec (.keyByte b) s = .next s) ∧
      (a = .reset → e = .fault →
        exec (.keyByte b) s = .next { s with input := { s.input with entry := .openEntry } }) ∧
      (a = .reset → e = .held .fault → exec (.keyByte b) s =
        .next { s with input := { s.input with entry := .held .openEntry } }))

/-- WAND_BYTE gathers a byte into the partial scan; SCAN_COMPLETE accepts a good scan that the Key Unit
allows, marker and scan together with the accept pulse of 2 ms, and otherwise sounds REFUSE and changes
neither queue; the assembler is empty after it (R93, R120, R121; the pulse as a timer by
log 14). -/
def Obligations.WandAndScan : Prop :=
  ∀ s : State, s.start.resetLow = false →
    let p := s.input.scan
    let empty : PartialScan := { chars := [], bad := false, overlong := false }
    let queues : Prop :=
      s.input.entry = .openEntry ∨ s.input.entry = .held .openEntry ∨
      ((s.input.entry = .await ∨ s.input.entry = .held .await) ∧
        s.tables.options.typeAhead = true)
    let accepted : Prop :=
      p.bad = false ∧ p.overlong = false ∧ p.chars ≠ [] ∧ queues ∧
      s.input.typeAhead.length < 32 ∧ s.input.scans.length < 4
    (∀ b : Byte, b ≠ 0x0D → exec (.wandByte b) s = .next { s with
      input := { s.input with
        scan :=
          if 0x20 ≤ b.toNat ∧ b.toNat ≤ 0x7E then
            (if p.chars.length < 48 then { p with chars := p.chars ++ [b] }
             else { p with overlong := true })
          else { p with bad := true } } }) ∧
    (accepted → exec .scanComplete s = .next { s with
      input := { s.input with
        typeAhead := s.input.typeAhead ++ [.marker]
        scans := s.input.scans ++ [p.chars], scan := empty, ackLeft := 512 } }) ∧
    (¬accepted → exec .scanComplete s = .next { s with
      input := { s.input with scan := empty }, tone := s.tone.request .refuse })

/-! ## Operator actions -/

/-- A change of current field by a move: exit processing of the field left, the push of a pushing move,
the cursor, the insert mode of a field entered and the visit flag cleared; a move within the field or
outside all fields only moves the cursor. Exit processing does nothing without a visit; after one it sets
or clears the error mark by the exit test, rewrites a normalised value, and then recomputes the tallies that
name the field; no other record and no other cell, on the screen or saved, changes (R70, R75, R82, R101,
R102, R110; fields compared by tag, log 21). -/
def Obligations.CurrentFieldChanges : Prop :=
  (∀ (fm : Form) (insertAtEntry push : Bool) (p : Nat),
    let before := fm.current.map (·.tag)
    let after := (fm.fieldAt p).map (·.tag)
    (before = after → fm.moveTo insertAtEntry push p = { fm with cursor := p }) ∧
    (before ≠ after → fm.moveTo insertAtEntry push p = { fm.exitProcess with
      cursor := p
      insert := if after.isSome then insertAtEntry else fm.insert
      visit := false
      history :=
        match push, before with
        | true, some t =>
          if fm.history.head? = some t then fm.history else (t :: fm.history).take 8
        | _, _ => fm.history })) ∧
  (∀ fm : Form, fm.visit = false ∨ fm.current = none → fm.exitProcess = fm) ∧
  (∀ (fm : Form) (f : Field), fm.lawful = true → fm.storeLaw = true → fm.visit = true →
    fm.current = some f → f.kind = .entry →
    let content := fm.content false f
    let rewrite : Option (List Byte) :=
      match f.cls with
      | .numeric n =>
        (match parseNumber n f.length content with
         | .value v => if f.opts.normalise then some (canonical n f.length v) else none
         | .empty | .format | .range => none)
      | .alpha | .code _ | .none => none
    ∃ cells : Store,
      (∀ p, readCell cells p =
        match rewrite, f.covers p with
        | some glyphs, true => { glyph := glyphs.getD (p - f.start) 0, style := f.normal }
        | _, _ => readCell fm.cells p) ∧
      fm.exitProcess = { Form.recomputeNaming
        { (fm.mapRecords fun g =>
            if g.tag = f.tag then { g with errorMark := exitTest f content } else g) with
          cells := cells }
        [f.tag] with visit := false })

/-- LEFT, RIGHT, UP and DOWN go to the neighbouring cell, round the ends of the store, or of an open
window, without a push (R2, R101, R104, R105). -/
def Obligations.CellMoves : Prop :=
  ∀ (s : State) (rest : List QueueEntry), s.input.entry = .openEntry →
    let p := s.form.cursor
    let row := p / 96
    let col := p % 96
    let goes (c : Instr) (a : Action) (q : Nat) : Prop :=
      s.input.typeAhead = .action a :: rest →
      exec c s = .next { s with
        input := { s.input with typeAhead := rest }
        form := s.form.moveTo s.tables.options.insertAtEntry false q }
    (s.form.overlay = none → p < 2688 →
      goes .left .left (if p = 0 then 2687 else p - 1) ∧
      goes .right .right (if p = 2687 then 0 else p + 1) ∧
      goes .up .up ((if row = 0 then 27 else row - 1) * 96 + col) ∧
      goes .down .down ((if row = 27 then 0 else row + 1) * 96 + col)) ∧
    (∀ o, s.form.overlay = some o → o.window.fits = true → o.window.contains p = true →
      let w := o.window
      let bottom := w.top + w.height - 1
      let side := w.left + w.width - 1
      goes .left .left
        (if w.left < col then p - 1
         else if w.top < row then (row - 1) * 96 + side else bottom * 96 + side) ∧
      goes .right .right
        (if col < side then p + 1
         else if row < bottom then (row + 1) * 96 + w.left else w.top * 96 + w.left) ∧
      goes .up .up ((if row = w.top then bottom else row - 1) * 96 + col) ∧
      goes .down .down ((if row = bottom then w.top else row + 1) * 96 + col))

/-- HOME, NEWLINE, NEXT and PREV choose an eligible field by its start and go to its first cell with a
push; NEXT follows the tab chain first; without an eligible field they go to position 0 or to the
window's corner (R106 to R110). -/
def Obligations.FieldMoves : Prop :=
  ∀ (s : State) (rest : List QueueEntry) (c : Instr) (a : Action),
    (c, a) ∈ [(Instr.home, Action.home), (.newline, .newline), (.next, .next), (.prev, .prev)] →
    s.form.lawful = true → s.input.entry = .openEntry →
    s.input.typeAhead = .action a :: rest →
    let fm := s.form
    let eligible := fm.active.filter fun f =>
      f.kind = .entry && (fm.overlay.all fun o => o.window.holds f)
    let went (p : Nat) : State :=
      { s with
        input := { s.input with typeAhead := rest }
        form := fm.moveTo s.tables.options.insertAtEntry true p }
    let first (f : Field) (among : Field → Prop) : Prop :=
      ((∃ g ∈ eligible, among g) →
        among f ∧ ∀ g ∈ eligible, among g → f.start ≤ g.start) ∧
      ((∀ g ∈ eligible, ¬among g) → ∀ g ∈ eligible, f.start ≤ g.start)
    let chain : Option Nat := fm.current.bind (·.next)
    (eligible = [] → exec c s = .next (went
      (match fm.overlay with
       | some o => o.window.top * 96 + o.window.left
       | none => 0))) ∧
    (eligible ≠ [] → ∃ f ∈ eligible, exec c s = .next (went f.start) ∧
      (c = .home → ∀ g ∈ eligible, f.start ≤ g.start) ∧
      (c = .newline → first f fun g => fm.cursor / 96 < g.start / 96) ∧
      (c = .next →
        (∀ t, chain = some t → (∃ g ∈ eligible, g.tag = t) → f.tag = t) ∧
        ((∀ t, chain = some t → ∀ g ∈ eligible, g.tag ≠ t) →
          first f fun g => fm.cursor < g.start)) ∧
      (c = .prev →
        let reference := (fm.current.map (·.start)).getD fm.cursor
        ((∃ g ∈ eligible, g.start < reference) →
          f.start < reference ∧ ∀ g ∈ eligible, g.start < reference → g.start ≤ f.start) ∧
        ((∀ g ∈ eligible, reference ≤ g.start) → ∀ g ∈ eligible, g.start ≤ f.start)))

/-- BACK takes tags off the history until one names a field other than the current one, inside an open
window, and goes to its first cell without a push; when none does, the key is refused and the history is
empty (R97, R111, R117). -/
def Obligations.BackReturns : Prop :=
  ∀ (s : State) (rest : List QueueEntry), s.input.entry = .openEntry →
    s.input.typeAhead = .action .back :: rest →
    let accepts (t : Nat) (f : Field) : Prop :=
      s.form.activeTag t = some f ∧ s.form.current.map (·.tag) ≠ some t ∧
      (s.form.overlay.all fun o => o.window.holds f) = true
    (∀ (skipped : List Nat) (t : Nat) (left : List Nat) (f : Field),
      s.form.history = skipped ++ t :: left → (∀ u ∈ skipped, ∀ g, ¬accepts u g) → accepts t f →
      exec .back s = .next { s with
        input := { s.input with typeAhead := rest }
        form := { s.form with history := left }.moveTo s.tables.options.insertAtEntry false
          f.start }) ∧
    ((∀ t ∈ s.form.history, ∀ g, ¬accepts t g) →
      exec .back s = .next { s with
        input :=
          if s.tables.options.softFaults then { s.input with typeAhead := rest }
          else { s.input with typeAhead := [], scans := [], entry := .fault }
        tone := s.tone.request .refuse
        form := { s.form with history := [] } })

/-- CHAR in an ENTRY field whose class admits the folded glyph: the glyph at the cursor, in insert mode
with the cells from it on moved one place right, the modified mark, the visit flag, the CLICK tone by its
option, and the advance, which from the last cell is that of NEXT with auto-advance (R112, R118). -/
def Obligations.CharPlaces : Prop :=
  ∀ (s : State) (glyph : Byte) (rest : List QueueEntry) (f : Field),
    s.form.lawful = true → s.form.storeLaw = true → s.input.entry = .openEntry →
    s.input.typeAhead = .action (.char glyph) :: rest →
    s.form.current = some f → f.kind = .entry →
    let own := classEntry s.tables.classes glyph
    let g := if f.opts.fold && own.letter then own.fold else glyph
    let e := classEntry s.tables.classes g
    (match f.cls with
     | .alpha => e.printable
     | .numeric _ => e.digit || e.numpunct
     | .code _ => e.digit
     | .none => false) = true →
    (s.form.insert = true → (readCell s.form.cells (f.start + f.length - 1)).glyph = 0) →
    ∃ cells : Store,
      (∀ p, readCell cells p =
        if p = s.form.cursor then { glyph := g, style := f.normal }
        else if s.form.insert = true ∧ s.form.cursor < p ∧ f.covers p = true then
          { glyph := (readCell s.form.cells (p - 1)).glyph, style := f.normal }
        else readCell s.form.cells p) ∧
      (let placed : Form :=
        { (s.form.mapRecords fun h => if h.tag = f.tag then { h with modified := true } else h) with
          cells := cells, visit := true }
       exec (.char glyph) s = .next { s with
        input := { s.input with typeAhead := rest }
        tone := if s.tables.options.keyClick then s.tone.request .click else s.tone
        form :=
          if s.form.cursor + 1 < f.start + f.length then
            { placed with cursor := s.form.cursor + 1 }
          else if f.opts.autoAdvance then
            placed.moveTo s.tables.options.insertAtEntry true (placed.moveTarget placed.nextField)
          else placed })

/-- BACKSPACE, DELETE, ERASE-TO-END and ERASE-FIELD in an ENTRY field: the content after each, written
from the place each starts at in the field's normal style, the cursor at that place, the modified mark and
the visit flag; no other cell, mark or tone (R114, R115). -/
def Obligations.ErasingEdits : Prop :=
  ∀ (s : State) (c : Instr) (a : Action) (rest : List QueueEntry) (f : Field) (place : Nat)
    (content : List Byte),
    s.form.lawful = true → s.form.storeLaw = true → s.input.entry = .openEntry →
    s.input.typeAhead = .action a :: rest → s.form.current = some f → f.kind = .entry →
    let before := s.form.content false f
    let offset := s.form.cursor - f.start
    ((c = .backspace ∧ a = .backspace ∧ f.start < s.form.cursor ∧ place = s.form.cursor - 1 ∧
        content = before.take (offset - 1) ++ before.drop offset ++ [0]) ∨
     (c = .delete ∧ a = .delete ∧ place = s.form.cursor ∧
        content = before.take offset ++ before.drop (offset + 1) ++ [0]) ∨
     (c = .eraseToEnd ∧ a = .eraseToEnd ∧ place = s.form.cursor ∧
        content = before.take offset ++ List.replicate (f.length - offset) 0) ∨
     (c = .eraseField ∧ a = .eraseField ∧ place = f.start ∧
        content = List.replicate f.length 0)) →
    ∃ cells : Store,
      (∀ p, readCell cells p =
        if f.covers p = true ∧ place ≤ p then
          { glyph := content.getD (p - f.start) 0, style := f.normal }
        else readCell s.form.cells p) ∧
      exec c s = .next { s with
        input := { s.input with typeAhead := rest }
        form :=
          { (s.form.mapRecords fun h => if h.tag = f.tag then { h with modified := true } else h)
            with cells := cells, visit := true, cursor := place } }

/-- STEP-UP and STEP-DOWN complete: an effective step writes the canonical form of the stepped and clamped
value in the field's normal style, sets the modified mark and the visit flag and clears the error mark, the
cursor, every other record, every other cell and the save area staying, and then recomputes the tallies
that name the field; a step whose new value equals the old one does nothing (R77 to R79, R82, R116). -/
def Obligations.StepChangesValue : Prop :=
  ∀ (s : State) (up : Bool) (rest : List QueueEntry) (f : Field) (n : NumPart) (v : Int),
    s.form.lawful = true → s.form.storeLaw = true → s.input.entry = .openEntry →
    s.input.typeAhead = .action (if up then .stepUp else .stepDown) :: rest →
    s.form.current = some f → f.kind = .entry → f.cls = .numeric n →
    parseNumber n f.length (s.form.content false f) = .value v ∨
      (parseNumber n f.length (s.form.content false f) = .empty ∧
        v = if 0 < n.lower then n.lower else if n.upper < 0 then n.upper else 0) →
    let moved := if up then v + n.step else v - n.step
    let w := if moved < n.lower then n.lower else if n.upper < moved then n.upper else moved
    let taken : Input := { s.input with typeAhead := rest }
    let answers (t : State) : Prop :=
      (up = true → exec .stepUp s = .next t) ∧ (up = false → exec .stepDown s = .next t)
    (w = v → answers { s with input := taken }) ∧
    (w ≠ v → ∃ cells : Store,
      (∀ p, readCell cells p =
        if f.covers p then
          { glyph := (canonical n f.length w).getD (p - f.start) 0, style := f.normal }
        else readCell s.form.cells p) ∧
      answers { s with
        input := taken
        form := Form.recomputeNaming
          { (s.form.mapRecords fun g =>
              if g.tag = f.tag then { g with modified := true, errorMark := none } else g) with
            cells := cells, visit := true }
          [f.tag] })

/-- Where the Entry Engine refuses an edit or a step, nothing of the form changes: FAULT with the queues
emptied, or the REFUSE tone alone under soft faults (R89, R97, R112 to R117). -/
def Obligations.EditsRefused : Prop :=
  ∀ (s : State) (c : Instr) (a : Action) (rest : List QueueEntry),
    s.input.entry = .openEntry → s.input.typeAhead = .action a :: rest →
    let fm := s.form
    let outside : Prop := ∀ f, fm.current = some f → f.kind ≠ .entry
    ((∃ g : Byte, c = .char g ∧ a = .char g ∧
        (outside ∨ ∃ f, fm.current = some f ∧
          (admits s.tables.classes f (foldGlyph s.tables.classes f g) = false ∨
           (fm.insert = true ∧ (readCell fm.cells (f.start + f.length - 1)).glyph ≠ 0)))) ∨
     (c = .backspace ∧ a = .backspace ∧
        (outside ∨ ∃ f, fm.current = some f ∧ fm.cursor = f.start)) ∨
     ((c, a) ∈ [(Instr.delete, Action.delete), (.eraseToEnd, .eraseToEnd),
        (.eraseField, .eraseField)] ∧ outside) ∨
     ((c, a) ∈ [(Instr.stepUp, Action.stepUp), (.stepDown, .stepDown)] ∧
        (outside ∨ ∃ f, fm.current = some f ∧
          ((∀ n, f.cls ≠ .numeric n) ∨
           ∃ n, f.cls = .numeric n ∧
            (parseNumber n f.length (fm.content false f) = .format ∨
             parseNumber n f.length (fm.content false f) = .range))))) →
    exec c s = .next { s with
      input :=
        if s.tables.options.softFaults then { s.input with typeAhead := rest }
        else { s.input with typeAhead := [], scans := [], entry := .fault }
      tone := s.tone.request .refuse }

/-- CANCEL builds a submission with key number 0xFF and no entries and goes to AWAIT; RESET taken from
the queue does nothing else; INSERT-TOGGLE flips the insert mode; a SUBMIT or CANCEL waits while the reply
buffer is BUSY; an action of any kind, or a scan placement, whose entry is not at the head of the queue, or
not in OPEN, is not carried out (R94 to R96, R113, R155; what is not due does nothing by log 1). -/
def Obligations.CancelResetInsertToggle : Prop :=
  (∀ (s : State) (rest : List QueueEntry), s.input.entry = .openEntry →
    (s.input.typeAhead = .action .cancel :: rest → s.line.reply = none →
      exec .cancel s = .next (State.transmit { s with
        input := { s.input with
          entry := .await
          typeAhead := if s.tables.options.typeAhead then rest else []
          scans := if s.tables.options.typeAhead then s.input.scans else [] }
        line := { s.line with
          reply := some
            ([0x81, s.stream.lastSeq, 0xFF, BitVec.ofNat 8 (s.form.cursor / 96),
              BitVec.ofNat 8 (s.form.cursor % 96)] ++ bytes2 s.clock.day ++
              bytes3 s.clock.second ++ bytes2 s.clock.millisecond ++ [0]) } })) ∧
    (s.input.typeAhead = .action .reset :: rest →
      exec .reset s = .next { s with input := { s.input with typeAhead := rest } }) ∧
    (s.input.typeAhead = .action .insertToggle :: rest →
      exec .insertToggle s = .next { s with
        input := { s.input with typeAhead := rest }
        form := { s.form with insert := !s.form.insert } })) ∧
  (∀ (s : State) (key : Byte), s.line.reply ≠ none →
    exec (.submit key) s = .next s ∧ exec .cancel s = .next s) ∧
  (∀ (s : State) (c : Instr) (a : Action) (glyph key : Byte),
    (c, a) ∈ [(Instr.char glyph, Action.char glyph), (.submit key, .submit key),
      (.next, .next), (.prev, .prev), (.newline, .newline), (.home, .home),
      (.back, .back), (.left, .left), (.right, .right), (.up, .up), (.down, .down),
      (.backspace, .backspace), (.delete, .delete), (.eraseToEnd, .eraseToEnd),
      (.eraseField, .eraseField), (.insertToggle, .insertToggle), (.stepUp, .stepUp),
      (.stepDown, .stepDown), (.cancel, .cancel), (.reset, .reset)] →
    s.input.entry ≠ .openEntry ∨ s.input.typeAhead.head? ≠ some (.action a) →
    exec c s = .next s) ∧
  (∀ s : State, s.input.entry ≠ .openEntry ∨ s.input.typeAhead.head? ≠ some .marker →
    exec .scanPlacement s = .next s)

/-- SUBMIT: exit processing and the sweep. When every sweep field passes, the submission of the modified
and kept fields is built with the stamp, their collision marks are cleared, and the state goes to AWAIT.
At the first that fails, its mark is kept or set, with the tallies that follow, the cursor goes to it
without a push, and the key is refused (R96, R97, R148 to R154). -/
def Obligations.SubmitSweepsAndBuilds : Prop :=
  ∀ (s : State) (key : Byte) (rest : List QueueEntry), s.input.entry = .openEntry →
    s.input.typeAhead = .action (.submit key) :: rest → s.line.reply = none →
    let out := s.form.exitProcess
    let sweep := out.active.filter fun f =>
      f.kind = .entry && (out.overlay.all fun o => o.window.holds f)
    let missing (f : Field) : Prop :=
      f.opts.mandatory = true ∧ ∀ g ∈ out.content false f, g = 0x00 ∨ g = 0x20
    let partly (f : Field) : Prop :=
      (f.cls = .alpha ∨ ∃ r, f.cls = .code r) ∧ f.opts.fillWhole = true ∧
      isPartial f.length (out.content false f) = true
    let fails (f : Field) : Prop := f.errorMark ≠ none ∨ missing f ∨ partly f
    let carried := out.active.filter fun f =>
      (f.modified || f.opts.keepInReply) && (out.overlay.all fun o => o.window.holds f)
    ((∀ f ∈ sweep, ¬fails f) →
      exec (.submit key) s = .next (State.transmit { s with
        form := out.mapRecords fun f =>
          if carried.any (·.tag == f.tag) then { f with collision := false } else f
        input := { s.input with
          entry := .await
          typeAhead := if s.tables.options.typeAhead then rest else []
          scans := if s.tables.options.typeAhead then s.input.scans else [] }
        line := { s.line with
          reply := some
            ([0x81, s.stream.lastSeq, key, BitVec.ofNat 8 (s.form.cursor / 96),
              BitVec.ofNat 8 (s.form.cursor % 96)] ++ bytes2 s.clock.day ++
              bytes3 s.clock.second ++ bytes2 s.clock.millisecond ++
              [BitVec.ofNat 8 carried.length] ++ carried.flatMap (out.fieldEntry false)) } })) ∧
    (∀ (passed : List Field) (f : Field) (others : List Field),
      sweep = passed ++ f :: others → (∀ g ∈ passed, ¬fails g) →
      let refused (fm : Form) : State :=
        { s with
          form := fm.moveTo s.tables.options.insertAtEntry false f.start
          tone := s.tone.request .refuse
          input :=
            if s.tables.options.softFaults then { s.input with typeAhead := rest }
            else { s.input with typeAhead := [], scans := [], entry := .fault } }
      let marked (e : ErrorKind) : Form := (out.setError f.tag (some e)).recomputeNaming [f.tag]
      (f.errorMark ≠ none → exec (.submit key) s = .next (refused out)) ∧
      (f.errorMark = none → missing f →
        exec (.submit key) s = .next (refused (marked .missing))) ∧
      (f.errorMark = none → ¬missing f → partly f →
        exec (.submit key) s = .next (refused (marked .incomplete))))

/-! ## Scans -/

/-- SCAN_PLACEMENT: the first routing entry that recognises the scan, or none; the wait for the reply
buffer; the refusals, which change nothing but the queues and the tone line; and the placement with the
GOOD tone, followed by a submit when the match asks for one, whose failing sweep refuses no key (R126 to
R130, R133). -/
def Obligations.ScanPlaced : Prop :=
  (∀ (t : Tables) (scan : List Byte),
    let sees (r : Route) : Prop :=
      r.second.enable = true ∧ r.first.lead <+: scan ∧ r.first.shortest ≤ scan.length ∧
      scan.length ≤ r.first.longest
    (∀ (passed : List Route) (r : Route) (others : List Route),
      t.routes = passed ++ r :: others → (∀ q ∈ passed, ¬sees q) → sees r →
      t.matchScan scan = r.second) ∧
    ((∀ r ∈ t.routes, ¬sees r) →
      (t.matchScan scan).target = 0 ∧ (t.matchScan scan).strip = 0 ∧
      (t.matchScan scan).keep = .head ∧ (t.matchScan scan).advance = false ∧
      (t.matchScan scan).key = 0)) ∧
  (∀ (s : State) (scan : List Byte) (waiting : List (List Byte)) (rest : List QueueEntry),
    s.input.entry = .openEntry → s.input.typeAhead = .marker :: rest →
    s.input.scans = scan :: waiting →
    let r := s.tables.matchScan scan
    let taken : State :=
      { s with input := { s.input with typeAhead := rest, scans := waiting } }
    let refused : State := { taken with tone := s.tone.request .refuse }
    let target := if r.target = 0 then s.form.current else s.form.activeTag r.target
    let fit (f : Field) : Prop :=
      f.kind = .entry ∧ (s.form.overlay.all fun o => o.window.holds f) = true
    (r.key ≠ 0 → s.line.reply ≠ none → exec .scanPlacement s = .next s) ∧
    (r.key = 0 ∨ s.line.reply = none →
      ((∀ f, target = some f → ¬fit f) → exec .scanPlacement s = .next refused) ∧
      (∀ f, target = some f → fit f →
        let stripped := scan.drop r.strip
        let kept := (match r.keep with
          | .head => stripped.take f.length
          | .tail => stripped.drop (stripped.length - f.length)).map
            (foldGlyph s.tables.classes f)
        let candidate := kept ++ List.replicate (f.length - kept.length) 0
        let passes : Prop :=
          (∀ g ∈ kept, admits s.tables.classes f g = true) ∧ exitTest f candidate = none
        let placed : State :=
          { taken with
            form := s.form.placeScan s.tables.options.insertAtEntry r f kept
            tone := s.tone.request .good }
        (¬passes → exec .scanPlacement s = .next refused) ∧
        (passes → r.key = 0 → exec .scanPlacement s = .next placed) ∧
        (passes → r.key ≠ 0 → ∀ t : State,
          exec (.submit r.key)
            { placed with
              input := { placed.input with typeAhead := .action (.submit r.key) :: rest } } =
            .next t →
          (t.input.entry = .await → exec .scanPlacement s = .next t) ∧
          (t.input.entry ≠ .await →
            exec .scanPlacement s = .next { t with input := placed.input })))))

/-- What a placement writes: the target entered with a push when it was not the current field, the
candidate as its content or its canonical form, the modified mark set and the error mark clear, every other
record, every other cell and the save area left, then the tallies that name the target recomputed, the visit
flag clear and the cursor on its first cell, from which an advance moves as NEXT does (R76, R82, R131,
R132). -/
def Obligations.PlacementWrites : Prop :=
  ∀ (fm : Form) (insertAtEntry : Bool) (r : RoutePlace) (f : Field) (kept : List Byte),
    fm.lawful = true → fm.storeLaw = true → f ∈ fm.active → f.kind = .entry →
    kept.length ≤ f.length →
    let candidate := kept ++ List.replicate (f.length - kept.length) 0
    exitTest f candidate = none →
    let entered :=
      if fm.current.map (·.tag) = some f.tag then fm else fm.moveTo insertAtEntry true f.start
    let content : List Byte :=
      match f.cls with
      | .numeric n =>
        (match parseNumber n f.length candidate with
         | .value v =>
           if f.opts.normalise then (canonical n f.length v).take f.length else candidate
         | .empty | .format | .range => candidate)
      | .alpha | .code _ | .none => candidate
    ∃ cells : Store,
      (∀ p, readCell cells p =
        if f.covers p then { glyph := content.getD (p - f.start) 0, style := f.normal }
        else readCell entered.cells p) ∧
      (let placed : Form :=
        { Form.recomputeNaming
            { (entered.mapRecords fun g =>
                if g.tag = f.tag then { g with modified := true, errorMark := none } else g) with
              cells := cells }
            [f.tag] with
          visit := false, cursor := f.start }
       fm.placeScan insertAtEntry r f kept =
         if r.advance then
           placed.moveTo insertAtEntry true (placed.moveTarget placed.nextField)
         else placed)

/-! ## The display -/

/-- DISPLAY_ROW_START begins a row when none is in progress; DISPLAY_ROW_END sends the cells of the row in
progress that are not yet sent, and with column 95 the row counter advances, from 27 to 0; without a row in
progress the counter stands, so that it advances once for a row; DRDY_WITHDRAWN abandons a row in progress
and the row counter stands (R11; logs 2, 15, 20). -/
def Obligations.DisplayRows : Prop :=
  (∀ s : State, s.start.resetLow = false → s.display.column = none →
    exec .displayRowStart s = .next { s with
      display := { s.display with column := some 0, sent := [], ready := true } }) ∧
  (∀ (s : State) (c : Nat), s.display.column = some c → c < 96 → s.display.row < 28 →
    exec .displayRowEnd s = .next { s with
      display := { s.display with
        column := none
        row := if s.display.row = 27 then 0 else s.display.row + 1
        sent := s.display.sent ++
          (List.range (96 - c)).map fun i => s.renderCell (s.display.row * 96 + (c + i)) } }) ∧
  (∀ s : State, s.display.column = none → exec .displayRowEnd s = .next s) ∧
  (∀ s : State, exec .drdyWithdrawn s = .next { s with
    display := { s.display with column := none, ready := false } })

/-- How a cell is sent: its owner, the governing style, the glyph after hidden, null and blink, the cursor
as underline or reversed reverse in OPEN and FAULT, and the attribute code; and the lamps (R7 to R10, R13
to R15). -/
def Obligations.CellsRendered : Prop :=
  ∀ (s : State) (p : Nat),
    let own := readCell s.form.cells p
    let owner := s.form.writeOwner p
    let style := s.tables.styles.getD (s.form.governingNumber p)
      { intensity := .normal, underline := false, reverse := false, blink := false }
    let drawn : Prop :=
      (s.input.entry = .openEntry ∨ s.input.entry = .fault) ∧ p = s.form.cursor
    (owner = none → s.form.governingNumber p = own.style) ∧
    (∀ f, owner = some f →
      (∀ a, f.alert = some a → s.form.governingNumber p = a.style) ∧
      (f.alert = none →
        (f.errorMark ≠ none ∨ (f.kind = .tally ∧ (f.incomplete = true ∨ f.saturated = true)) →
          s.form.governingNumber p = f.error) ∧
        (f.errorMark = none → ¬(f.kind = .tally ∧ (f.incomplete = true ∨ f.saturated = true)) →
          s.form.governingNumber p =
            if (s.form.fieldAt p).isSome ∧ s.form.current.map (·.tag) = some f.tag then f.edit
            else own.style))) ∧
    ((s.renderCell p).glyph =
      if (∃ f, owner = some f ∧ f.opts.hidden = true) ∨ own.glyph = 0 ∨
        (style.blink = true ∧ s.display.phase = .blanked) then 0x20 else own.glyph) ∧
    (let code := (s.renderCell p).code.toNat
     code % 4 = (match style.intensity with | .normal => 0 | .bright => 1 | .dim => 2) ∧
     (code / 4 % 2 = 1 ↔ (style.underline = true ∨ (drawn ∧ s.form.insert = false))) ∧
     (code / 8 = 1 ↔ (if drawn ∧ s.form.insert = true then style.reverse = false
      else style.reverse = true))) ∧
    (s.lampWait = true ↔ s.input.entry = .await ∨ s.input.entry.isHeld = true) ∧
    (s.lampFault = true ↔ s.input.entry = .fault) ∧ s.lampInsert = s.form.insert

/-! ## Values -/

/-- The parse of NUMERIC content: blanks at both ends set aside, EMPTY when nothing remains, VALUE or RANGE
for an optional minus sign on a signed field and digits with at most one point, brought to the scale and
rounded half away from zero by the first discarded digit, and FORMAT for anything else. The canonical form
of a value within the limits of a NUMERIC field fills the field exactly, parses to that value again, and
holds no null (R66 to R69). -/
def Obligations.CanonicalParses : Prop :=
  (∀ (n : NumPart) (length : Nat) (lead body tail : List Byte),
    (∀ b ∈ lead ++ tail, b = 0x00 ∨ b = 0x20) →
    (∀ b, body.head? = some b ∨ body.getLast? = some b → b ≠ 0x00 ∧ b ≠ 0x20) →
    let parsed := parseNumber n length (lead ++ body ++ tail)
    let spells (negative : Bool) (whole fraction : List Byte) : Prop :=
      (negative = true → n.signed = true) ∧ whole ++ fraction ≠ [] ∧
      (∀ b ∈ whole ++ fraction, 0x30 ≤ b.toNat ∧ b.toNat ≤ 0x39) ∧
      (let sign : List Byte := if negative then [0x2D] else []
       body = sign ++ whole ++ 0x2E :: fraction ∨ (fraction = [] ∧ body = sign ++ whole))
    (body = [] → parsed = .empty) ∧
    (∀ (negative : Bool) (whole fraction : List Byte), spells negative whole fraction →
      let number (digits : List Byte) : Nat :=
        digits.foldl (fun m b => m * 10 + (b.toNat - 0x30)) 0
      let magnitude : Nat :=
        if fraction.length ≤ n.scale then
          number (whole ++ fraction) * 10 ^ (n.scale - fraction.length)
        else number (whole ++ fraction.take n.scale) +
          (if 0x35 ≤ (fraction.getD n.scale 0).toNat then 1 else 0)
      let v : Int := if negative then -(magnitude : Int) else magnitude
      parsed =
        if largestMagnitude length n.signed n.scale < magnitude ∨ v < n.lower ∨ n.upper < v then
          .range
        else .value v) ∧
    (body ≠ [] → (∀ negative whole fraction, ¬spells negative whole fraction) →
      parsed = .format)) ∧
  (∀ (length : Nat) (signed : Bool) (scale : Nat),
    let d : Int := (length : Int) - (if signed then 1 else 0) - (if scale = 0 then 0 else 1)
    digitCapacity length signed scale = d ∧
    (largestMagnitude length signed scale : Int) = 10 ^ d.toNat - 1) ∧
  (∀ (n : NumPart) (length : Nat) (v : Int), n.scale ≤ 3 →
    (n.scale : Int) + 1 ≤ digitCapacity length n.signed n.scale →
    digitCapacity length n.signed n.scale ≤ 9 →
    v.natAbs ≤ largestMagnitude length n.signed n.scale → n.lower ≤ v → v ≤ n.upper →
    (n.signed = false → 0 ≤ v) →
    (canonical n length v).length = length ∧
    parseNumber n length (canonical n length v) = .value v ∧
    ∀ g ∈ canonical n length v, g ≠ 0)

/-- The exit test by class. A fill-whole field is partial when its content, the blanks at the end set aside,
is neither empty nor as long as the field. ALPHA content fails with INCOMPLETE when it is partial. CODE
content passes when it is empty; it fails with FORMAT when what is left of it is not digits alone, or is a
single digit under a check rule; then with INCOMPLETE when it is partial; and then with CHECK by its check
rule, of which NONE asks nothing. NUMERIC content fails as its parse does, whatever the options. A code
passes its check rule exactly when the weighted sum of its data digits and the check digit is a multiple of
10 under MOD10W31 and of 11 under MOD11, which no check digit achieves for a remainder of 1; otherwise it
fails with CHECK (R71 to R75). -/
def Obligations.CheckDigits : Prop :=
  (∀ (f : Field) (code tail : List Byte),
    (∀ b ∈ tail, b = 0x00 ∨ b = 0x20) →
    (∀ b, code.getLast? = some b → b ≠ 0x00 ∧ b ≠ 0x20) →
    let tested := exitTest f (code ++ tail)
    let partly : Prop := 0 < code.length ∧ code.length < f.length
    let unfilled : Prop := f.opts.fillWhole = true ∧ partly
    let digits : Prop := ∀ b ∈ code, 0x30 ≤ b.toNat ∧ b.toNat ≤ 0x39
    (isPartial f.length (code ++ tail) = true ↔ partly) ∧
    (f.cls = .alpha →
      (unfilled → tested = some .incomplete) ∧ (¬unfilled → tested = none)) ∧
    (∀ rule, f.cls = .code rule →
      let formed : Prop := digits ∧ (rule ≠ .none → 2 ≤ code.length)
      (code = [] → tested = none) ∧
      (code ≠ [] → ¬formed → tested = some .format) ∧
      (code ≠ [] → formed → unfilled → tested = some .incomplete) ∧
      (code ≠ [] → formed → ¬unfilled →
        tested = if rule = .none then none else codeTest rule false f.length (code ++ tail))) ∧
    (∀ n, f.cls = .numeric n → tested =
      match parseNumber n f.length (code ++ tail) with
      | .format => some .format
      | .range => some .range
      | .empty | .value _ => none) ∧
    (f.cls = .none → tested = none)) ∧
  ∀ (data : List Byte) (check : Byte) (length : Nat) (tail : List Byte),
    data ≠ [] → (∀ b ∈ data ++ [check], 0x30 ≤ b.toNat ∧ b.toNat ≤ 0x39) →
    (∀ b ∈ tail, b = 0x00 ∨ b = 0x20) →
    let weighted (weight : Nat → Nat) : Nat :=
      ((List.range data.length).map fun i =>
        ((data.getD (data.length - 1 - i) 0x30).toNat - 0x30) * weight i).sum
    let ten := weighted fun i => [3, 1].getD (i % 2) 0
    let eleven := weighted fun i => [2, 3, 4, 5, 6, 7].getD (i % 6) 0
    let c := check.toNat - 0x30
    codeTest .mod10w31 false length (data ++ [check] ++ tail) =
      (if (ten + c) % 10 = 0 then none else some .check) ∧
    codeTest .mod11 false length (data ++ [check] ++ tail) =
      (if (eleven + c) % 11 = 0 then none else some .check) ∧
    (eleven % 11 = 1 →
      codeTest .mod11 false length (data ++ [check] ++ tail) = some .check)

/-! ## Laws that every step keeps -/

/-- Every step keeps these laws: the entry state is HELD exactly while the Stream Unit is APPLYING or CHAINED;
the scans are in step with their markers and both queues within their room; the stores are in their
canonical form; every counted quantity is within its range (R4, R6, R11, R88 to R90, R99, R110, R119, R161,
R176, R177). -/
def Obligations.EntryQueueStoreRangeLawsKept : Prop :=
  (∀ s t : State, s.heldLaw = true → step s = .next t → t.heldLaw = true) ∧
  ((∀ s t : State, s.input.queueLaw = true → step s = .next t → t.input.queueLaw = true) ∧
   (∀ s t : State, s.form.storeLaw = true → step s = .next t → t.form.storeLaw = true) ∧
   (∀ s t : State, s.rangeLaw = true → step s = .next t → t.rangeLaw = true))

/-- Every step keeps the law of the field table: records within a row, in position order, sharing no cell,
no tag twice, at most 120, and apart from the window's edge; and with it the cursor in the window and the
modified mark on ENTRY records only (R17, R20, R21, R32, R134). -/
def Obligations.TableLawKept : Prop :=
  (∀ s t : State, s.tableLaw = true → step s = .next t → t.tableLaw = true) ∧
  (∀ s t : State, s.tableLaw = true → s.form.cursorLaw = true → step s = .next t →
    t.form.cursorLaw = true) ∧
  (∀ s t : State, s.tableLaw = true → s.form.modifiedLaw = true → step s = .next t →
    t.form.modifiedLaw = true)

/-- The laws hold of the state after reset. -/
def Obligations.LawsHoldAtReset : Prop :=
  State.reset.heldLaw = true ∧ State.reset.input.queueLaw = true ∧
  State.reset.form.storeLaw = true ∧ State.reset.rangeLaw = true ∧
  State.reset.tableLaw = true ∧ State.reset.form.cursorLaw = true ∧
  State.reset.form.modifiedLaw = true

/-- While a field's modified mark is set, no command of the host changes its glyphs or frees its record,
but for a forced PUT or a DROP of its tag, CLEAR FORM and RESTORE with discard; nor does any event but a
reset (R37 to R39). A directive that runs exit processing rewrites the field only as the operator's own
visit ends. -/
def Obligations.ModifiedProtected : Prop :=
  ∀ (s t : State) (c : Instr) (f : Field) (susp : Bool),
    s.tableLaw = true → s.form.storeLaw = true → s.form.record f.tag = some (f, susp) →
    f.modified = true → f.kind = .entry → c.isOperatorOrReset = false → c ≠ .clearForm →
    (∀ tag force glyphs, c = .put tag force glyphs → tag.toNat = f.tag →
      force.getLsbD 0 = false) →
    (∀ tag, c = .drop tag → tag.toNat ≠ f.tag) →
    (∀ discard, c = .restore discard → discard.getLsbD 0 = false) →
    (c.runsExit = true → s.form.visit = true → s.form.isCurrent f.tag = false) →
    exec c s = .next t →
    ∃ (g : Field) (held : Bool), t.form.record f.tag = some (g, held) ∧
      g.definition = f.definition ∧ t.form.content held g = s.form.content susp f
end

