-- ==== Sys2Proof/Laws/Store.lean ====
section
/-! SUPPORT. The screen store: its canonical form is kept by every write, a read after a write gives what
was written, and every other cell stands (R1, log 23). -/

namespace Sys2Proof.Machine

open Sys2Proof

set_option Elab.async false

theorem storeWf_tail {e : Nat × Cell} {l : Store} (h : storeWf (e :: l) = true) :
    storeWf l = true := by
  simp only [storeWf, Bool.and_eq_true] at h; exact h.2

theorem storeWf_above {p : Nat} {c : Cell} {l : Store} (h : storeWf ((p, c) :: l) = true) :
    ∀ e ∈ l, p < e.1 := by
  simp only [storeWf, Bool.and_eq_true, List.all_eq_true, decide_eq_true_eq] at h
  exact h.1.2

/-- A position below every listed one reads as blank. -/
theorem readCell_below {l : Store} {p : Nat} (h : ∀ e ∈ l, p < e.1) : readCell l p = blankCell := by
  induction l with
  | nil => rfl
  | cons e l ih =>
    have he : p < e.1 := h e (by simp)
    simp only [readCell, if_neg (Nat.ne_of_lt he)]
    exact ih fun x hx => h x (by simp [hx])

/-- Every position that a write lists is the written one or was listed before. -/
theorem writeCell_mem {l : Store} {p : Nat} {c : Cell} {e : Nat × Cell}
    (h : e ∈ writeCell l p c) : e.1 = p ∨ e ∈ l := by
  induction l with
  | nil => simp only [writeCell] at h; split_ifs at h <;> simp_all
  | cons x l ih =>
    simp only [writeCell] at h
    split_ifs at h with h1 h2 h3 h4
    · exact .inr h
    · rcases List.mem_cons.1 h with rfl | h
      · exact .inl rfl
      · exact .inr h
    · exact .inr (by simp [h])
    · rcases List.mem_cons.1 h with rfl | h
      · exact .inl rfl
      · exact .inr (by simp [h])
    · rcases List.mem_cons.1 h with rfl | h
      · exact .inr (by simp)
      · rcases ih h with h | h
        · exact .inl h
        · exact .inr (by simp [h])

/-- A write keeps the canonical form. -/
theorem writeCell_wf {l : Store} (p : Nat) (c : Cell) (h : storeWf l = true) :
    storeWf (writeCell l p c) = true := by
  induction l with
  | nil => simp only [writeCell]; split_ifs with hc <;> simp [storeWf, hc]
  | cons x l ih =>
    have hx := storeWf_above h
    have hl := storeWf_tail h
    have hb : x.2 ≠ blankCell := by
      simp only [storeWf, Bool.and_eq_true, decide_eq_true_eq] at h; exact h.1.1
    simp only [writeCell]
    split_ifs with h1 h2 h3 h4
    · exact h
    · simp only [storeWf, Bool.and_eq_true, List.all_eq_true, decide_eq_true_eq]
      refine ⟨⟨h2, ?_⟩, ⟨hb, hx⟩, hl⟩
      intro e he
      rcases List.mem_cons.1 he with rfl | he
      · exact h1
      · exact Nat.lt_trans h1 (hx e he)
    · exact hl
    · simp only [storeWf, Bool.and_eq_true, List.all_eq_true, decide_eq_true_eq]
      exact ⟨⟨h4, fun e he => by subst h3; exact hx e he⟩, hl⟩
    · simp only [storeWf, Bool.and_eq_true, List.all_eq_true, decide_eq_true_eq]
      refine ⟨⟨hb, fun e he => ?_⟩, ih hl⟩
      rcases writeCell_mem he with he | he
      · omega
      · exact hx e he

/-- A read after a write to the same position gives the cell written. -/
theorem readCell_writeCell_same {l : Store} (p : Nat) (c : Cell) (h : storeWf l = true) :
    readCell (writeCell l p c) p = c := by
  induction l with
  | nil => simp only [writeCell]; split_ifs with hc <;> simp [readCell, hc]
  | cons x l ih =>
    have hx := storeWf_above h
    simp only [writeCell]
    split_ifs with h1 h2 h3 h4
    · subst h2
      exact readCell_below fun e he => by
        rcases List.mem_cons.1 he with rfl | he
        · exact h1
        · exact Nat.lt_trans h1 (hx e he)
    · simp [readCell]
    · subst h4
      exact readCell_below fun e he => by subst h3; exact hx e he
    · simp [readCell]
    · simp only [readCell, if_neg h3]; exact ih (storeWf_tail h)

/-- A write leaves every other cell as it was. -/
theorem readCell_writeCell_other (l : Store) {p q : Nat} (c : Cell) (h : q ≠ p) :
    readCell (writeCell l p c) q = readCell l q := by
  induction l with
  | nil => simp only [writeCell]; split_ifs <;> simp [readCell, h]
  | cons x l ih =>
    simp only [writeCell]
    split_ifs with h1 h2 h3 h4
    · rfl
    · simp [readCell, h]
    · subst h3; simp [readCell, h]
    · subst h3; simp [readCell, h]
    · simp only [readCell, ih]


end Sys2Proof.Machine
end

