-- ==== Sys2Proof/Laws/Form.lean ====
section
/-! SUPPORT. What each operation on the form leaves: the parts of a form that a write of cells, a change of
records, a recomputation or exit processing does not touch, and the cells that a copy or a fill gives. -/

namespace Sys2Proof.Machine

open Sys2Proof

set_option Elab.async false

/-! ## Copies and fills (R136, R142) -/

theorem fillCells_wf (c : Cell) (l : List Nat) (s : Store) (h : storeWf s = true) :
    storeWf (fillCells c l s) = true := by
  induction l generalizing s with
  | nil => exact h
  | cons p l ih => exact ih _ (writeCell_wf p c h)

theorem copyCells_wf (source : Store) (l : List Nat) (s : Store) (h : storeWf s = true) :
    storeWf (copyCells source l s) = true := by
  induction l generalizing s with
  | nil => exact h
  | cons p l ih => exact ih _ (writeCell_wf p _ h)

/-- A fill gives its cell at the positions filled and leaves the others. -/
theorem readCell_fillCells (c : Cell) (l : List Nat) (s : Store) (h : storeWf s = true) (p : Nat) :
    readCell (fillCells c l s) p = if p ∈ l then c else readCell s p := by
  induction l generalizing s with
  | nil => simp [fillCells]
  | cons q l ih =>
    rw [fillCells, ih _ (writeCell_wf q c h)]
    by_cases hl : p ∈ l
    · simp [hl]
    · by_cases hq : p = q
      · subst hq; simp [hl, readCell_writeCell_same p c h]
      · simp [hl, hq, readCell_writeCell_other s c hq]

/-- A copy gives the source's cells at the positions copied and leaves the others. -/
theorem readCell_copyCells (source : Store) (l : List Nat) (s : Store) (h : storeWf s = true)
    (p : Nat) :
    readCell (copyCells source l s) p = if p ∈ l then readCell source p else readCell s p := by
  induction l generalizing s with
  | nil => simp [copyCells]
  | cons q l ih =>
    rw [copyCells, ih _ (writeCell_wf q _ h)]
    by_cases hl : p ∈ l
    · simp [hl]
    · by_cases hq : p = q
      · subst hq; simp [hl, readCell_writeCell_same p _ h]
      · simp [hl, hq, readCell_writeCell_other s _ hq]

/-! ## Writes of cells -/

@[simp] theorem Form.setScreen_active (fm : Form) (p : Nat) (c : Cell) :
    (fm.setScreen p c).active = fm.active := rfl
@[simp] theorem Form.setScreen_overlay (fm : Form) (p : Nat) (c : Cell) :
    (fm.setScreen p c).overlay = fm.overlay := rfl
@[simp] theorem Form.setScreen_cursor (fm : Form) (p : Nat) (c : Cell) :
    (fm.setScreen p c).cursor = fm.cursor := rfl
@[simp] theorem Form.setScreen_insert (fm : Form) (p : Nat) (c : Cell) :
    (fm.setScreen p c).insert = fm.insert := rfl
@[simp] theorem Form.setScreen_visit (fm : Form) (p : Nat) (c : Cell) :
    (fm.setScreen p c).visit = fm.visit := rfl
@[simp] theorem Form.setScreen_history (fm : Form) (p : Nat) (c : Cell) :
    (fm.setScreen p c).history = fm.history := rfl

/-- A write to the screen, or of a field that is not suspended, changes the screen cells only. -/
@[simp] theorem Form.setCellOf_false (fm : Form) (p : Nat) (c : Cell) :
    fm.setCellOf false p c = fm.setScreen p c := rfl

@[simp] theorem Form.setCellOf_active (fm : Form) (b : Bool) (p : Nat) (c : Cell) :
    (fm.setCellOf b p c).active = fm.active := by
  unfold Form.setCellOf; split <;> [split_ifs; skip] <;> rfl
@[simp] theorem Form.setCellOf_cursor (fm : Form) (b : Bool) (p : Nat) (c : Cell) :
    (fm.setCellOf b p c).cursor = fm.cursor := by
  unfold Form.setCellOf; split <;> [split_ifs; skip] <;> rfl
@[simp] theorem Form.setCellOf_insert (fm : Form) (b : Bool) (p : Nat) (c : Cell) :
    (fm.setCellOf b p c).insert = fm.insert := by
  unfold Form.setCellOf; split <;> [split_ifs; skip] <;> rfl
@[simp] theorem Form.setCellOf_visit (fm : Form) (b : Bool) (p : Nat) (c : Cell) :
    (fm.setCellOf b p c).visit = fm.visit := by
  unfold Form.setCellOf; split <;> [split_ifs; skip] <;> rfl
@[simp] theorem Form.setCellOf_history (fm : Form) (b : Bool) (p : Nat) (c : Cell) :
    (fm.setCellOf b p c).history = fm.history := by
  unfold Form.setCellOf; split <;> [split_ifs; skip] <;> rfl
@[simp] theorem Form.setCellOf_suspended (fm : Form) (b : Bool) (p : Nat) (c : Cell) :
    (fm.setCellOf b p c).suspended = fm.suspended := by
  unfold Form.setCellOf
  split
  · next o h => split_ifs <;> simp [Form.suspended, Form.setScreen, h]
  · rfl
@[simp] theorem Form.setCellOf_window (fm : Form) (b : Bool) (p : Nat) (c : Cell) :
    (fm.setCellOf b p c).window = fm.window := by
  unfold Form.setCellOf
  split
  · next o h => split_ifs <;> simp [Form.window, Form.setScreen, h]
  · rfl

@[simp] theorem Form.writeGlyphs_active (fm : Form) (b : Bool) (n p : Nat) (l : List Byte) :
    (fm.writeGlyphs b n p l).active = fm.active := by
  induction l generalizing fm p with
  | nil => rfl
  | cons g l ih => simp [Form.writeGlyphs, ih]
@[simp] theorem Form.writeGlyphs_cursor (fm : Form) (b : Bool) (n p : Nat) (l : List Byte) :
    (fm.writeGlyphs b n p l).cursor = fm.cursor := by
  induction l generalizing fm p with
  | nil => rfl
  | cons g l ih => simp [Form.writeGlyphs, ih]
@[simp] theorem Form.writeGlyphs_insert (fm : Form) (b : Bool) (n p : Nat) (l : List Byte) :
    (fm.writeGlyphs b n p l).insert = fm.insert := by
  induction l generalizing fm p with
  | nil => rfl
  | cons g l ih => simp [Form.writeGlyphs, ih]
@[simp] theorem Form.writeGlyphs_visit (fm : Form) (b : Bool) (n p : Nat) (l : List Byte) :
    (fm.writeGlyphs b n p l).visit = fm.visit := by
  induction l generalizing fm p with
  | nil => rfl
  | cons g l ih => simp [Form.writeGlyphs, ih]
@[simp] theorem Form.writeGlyphs_history (fm : Form) (b : Bool) (n p : Nat) (l : List Byte) :
    (fm.writeGlyphs b n p l).history = fm.history := by
  induction l generalizing fm p with
  | nil => rfl
  | cons g l ih => simp [Form.writeGlyphs, ih]
@[simp] theorem Form.writeGlyphs_suspended (fm : Form) (b : Bool) (n p : Nat) (l : List Byte) :
    (fm.writeGlyphs b n p l).suspended = fm.suspended := by
  induction l generalizing fm p with
  | nil => rfl
  | cons g l ih => simp [Form.writeGlyphs, ih]
@[simp] theorem Form.writeGlyphs_window (fm : Form) (b : Bool) (n p : Nat) (l : List Byte) :
    (fm.writeGlyphs b n p l).window = fm.window := by
  induction l generalizing fm p with
  | nil => rfl
  | cons g l ih => simp [Form.writeGlyphs, ih]
/-- Of the save area, a write of cells changes saved cells alone (R139). -/
@[simp] theorem Form.setCellOf_savedPlace (fm : Form) (b : Bool) (p : Nat) (c : Cell) :
    (fm.setCellOf b p c).savedPlace = fm.savedPlace := by
  unfold Form.setCellOf
  split
  · next o h => split_ifs <;> simp [Form.savedPlace, Form.setScreen, h]
  · rfl
@[simp] theorem Form.writeGlyphs_savedPlace (fm : Form) (b : Bool) (n p : Nat) (l : List Byte) :
    (fm.writeGlyphs b n p l).savedPlace = fm.savedPlace := by
  induction l generalizing fm p with
  | nil => rfl
  | cons g l ih => simp [Form.writeGlyphs, ih]

/-- Glyphs written over screen cells: the run takes them in the style given, the others stand. -/
theorem readCell_writeGlyphs (fm : Form) (n p : Nat) (l : List Byte) (h : storeWf fm.cells = true)
    (q : Nat) :
    readCell (fm.writeGlyphs false n p l).cells q =
      if p ≤ q ∧ q < p + l.length then { glyph := l.getD (q - p) 0, style := n }
      else readCell fm.cells q := by
  induction l generalizing fm p with
  | nil => simp only [Form.writeGlyphs, List.length_nil]; rw [if_neg (by omega)]
  | cons g l ih =>
    rw [Form.writeGlyphs, ih _ _ (by exact writeCell_wf _ _ h)]
    simp only [Form.setCellOf_false, Form.setScreen, List.length_cons]
    by_cases h1 : p + 1 ≤ q ∧ q < p + 1 + l.length
    · rw [if_pos h1, if_pos (by omega)]
      obtain ⟨k, rfl⟩ : ∃ k, q = p + 1 + k := ⟨q - (p + 1), by omega⟩
      simp [show p + 1 + k - p = k + 1 by omega]
    · rw [if_neg h1]
      by_cases h2 : q = p
      · subst h2; simp [readCell_writeCell_same _ _ h]
      · rw [if_neg (by omega), readCell_writeCell_other _ _ h2]

/-! ## Changes of records -/

@[simp] theorem Form.mapRecords_cells (fm : Form) (g : Field → Field) :
    (fm.mapRecords g).cells = fm.cells := rfl
@[simp] theorem Form.mapRecords_active (fm : Form) (g : Field → Field) :
    (fm.mapRecords g).active = fm.active.map g := rfl
@[simp] theorem Form.mapRecords_cursor (fm : Form) (g : Field → Field) :
    (fm.mapRecords g).cursor = fm.cursor := rfl
@[simp] theorem Form.mapRecords_insert (fm : Form) (g : Field → Field) :
    (fm.mapRecords g).insert = fm.insert := rfl
@[simp] theorem Form.mapRecords_visit (fm : Form) (g : Field → Field) :
    (fm.mapRecords g).visit = fm.visit := rfl
@[simp] theorem Form.mapRecords_history (fm : Form) (g : Field → Field) :
    (fm.mapRecords g).history = fm.history := rfl
@[simp] theorem Form.mapRecords_suspended (fm : Form) (g : Field → Field) :
    (fm.mapRecords g).suspended = fm.suspended.map g := by
  unfold Form.mapRecords Form.mapSuspended Form.suspended
  cases fm.overlay <;> rfl
@[simp] theorem Form.mapRecords_window (fm : Form) (g : Field → Field) :
    (fm.mapRecords g).window = fm.window := by
  unfold Form.mapRecords Form.mapSuspended Form.window
  cases fm.overlay <;> rfl
@[simp] theorem Form.mapRecords_savedPlace (fm : Form) (g : Field → Field) :
    (fm.mapRecords g).savedPlace = fm.savedPlace := by
  unfold Form.mapRecords Form.mapSuspended Form.savedPlace
  cases fm.overlay <;> rfl
@[simp] theorem Form.mapRecords_savedCell (fm : Form) (g : Field → Field) (p : Nat) :
    (fm.mapRecords g).savedCell p = fm.savedCell p := by
  unfold Form.mapRecords Form.mapSuspended Form.savedCell
  cases fm.overlay <;> rfl

/-! ## Tallies and exit processing -/

@[simp] theorem Form.recomputeTally_cursor (fm : Form) (t : Nat) :
    (fm.recomputeTally t).cursor = fm.cursor := by
  unfold Form.recomputeTally
  repeat' split
  all_goals simp [Form.mapTag, Form.writeContent, Form.writeFrom]
@[simp] theorem Form.recomputeTally_insert (fm : Form) (t : Nat) :
    (fm.recomputeTally t).insert = fm.insert := by
  unfold Form.recomputeTally
  repeat' split
  all_goals simp [Form.mapTag, Form.writeContent, Form.writeFrom]
@[simp] theorem Form.recomputeTally_visit (fm : Form) (t : Nat) :
    (fm.recomputeTally t).visit = fm.visit := by
  unfold Form.recomputeTally
  repeat' split
  all_goals simp [Form.mapTag, Form.writeContent, Form.writeFrom]
@[simp] theorem Form.recomputeTally_history (fm : Form) (t : Nat) :
    (fm.recomputeTally t).history = fm.history := by
  unfold Form.recomputeTally
  repeat' split
  all_goals simp [Form.mapTag, Form.writeContent, Form.writeFrom]
@[simp] theorem Form.recomputeTally_window (fm : Form) (t : Nat) :
    (fm.recomputeTally t).window = fm.window := by
  unfold Form.recomputeTally
  repeat' split
  all_goals simp [Form.mapTag, Form.writeContent, Form.writeFrom]
@[simp] theorem Form.recomputeTally_savedPlace (fm : Form) (t : Nat) :
    (fm.recomputeTally t).savedPlace = fm.savedPlace := by
  unfold Form.recomputeTally
  repeat' split
  all_goals simp [Form.mapTag, Form.writeContent, Form.writeFrom]

/-- A part of the form that recomputing one tally keeps, recomputing all those concerned keeps. -/
theorem Form.recomputeNaming_keeps {α : Type} (part : Form → α)
    (h : ∀ (fm : Form) (t : Nat), part (fm.recomputeTally t) = part fm) (fm : Form)
    (tags : List Nat) : part (fm.recomputeNaming tags) = part fm := by
  unfold Form.recomputeNaming
  generalize ((fm.active ++ fm.suspended).filter (·.talliesAny tags)).map (·.tag) = l
  induction l generalizing fm with
  | nil => rfl
  | cons t l ih => simp only [List.foldl_cons]; rw [ih, h]

@[simp] theorem Form.recomputeNaming_cursor (fm : Form) (tags : List Nat) :
    (fm.recomputeNaming tags).cursor = fm.cursor :=
  fm.recomputeNaming_keeps (·.cursor) Form.recomputeTally_cursor tags
@[simp] theorem Form.recomputeNaming_insert (fm : Form) (tags : List Nat) :
    (fm.recomputeNaming tags).insert = fm.insert :=
  fm.recomputeNaming_keeps (·.insert) Form.recomputeTally_insert tags
@[simp] theorem Form.recomputeNaming_visit (fm : Form) (tags : List Nat) :
    (fm.recomputeNaming tags).visit = fm.visit :=
  fm.recomputeNaming_keeps (·.visit) Form.recomputeTally_visit tags
@[simp] theorem Form.recomputeNaming_history (fm : Form) (tags : List Nat) :
    (fm.recomputeNaming tags).history = fm.history :=
  fm.recomputeNaming_keeps (·.history) Form.recomputeTally_history tags
@[simp] theorem Form.recomputeNaming_window (fm : Form) (tags : List Nat) :
    (fm.recomputeNaming tags).window = fm.window :=
  fm.recomputeNaming_keeps (·.window) Form.recomputeTally_window tags
@[simp] theorem Form.recomputeNaming_savedPlace (fm : Form) (tags : List Nat) :
    (fm.recomputeNaming tags).savedPlace = fm.savedPlace :=
  fm.recomputeNaming_keeps (·.savedPlace) Form.recomputeTally_savedPlace tags

@[simp] theorem Form.normalise_cursor (fm : Form) (b : Bool) (f : Field) :
    (fm.normalise b f).cursor = fm.cursor := by
  unfold Form.normalise
  repeat' split
  all_goals simp [Form.writeContent, Form.writeFrom]
@[simp] theorem Form.normalise_insert (fm : Form) (b : Bool) (f : Field) :
    (fm.normalise b f).insert = fm.insert := by
  unfold Form.normalise
  repeat' split
  all_goals simp [Form.writeContent, Form.writeFrom]
@[simp] theorem Form.normalise_history (fm : Form) (b : Bool) (f : Field) :
    (fm.normalise b f).history = fm.history := by
  unfold Form.normalise
  repeat' split
  all_goals simp [Form.writeContent, Form.writeFrom]
@[simp] theorem Form.normalise_window (fm : Form) (b : Bool) (f : Field) :
    (fm.normalise b f).window = fm.window := by
  unfold Form.normalise
  repeat' split
  all_goals simp [Form.writeContent, Form.writeFrom]

@[simp] theorem Form.exitProcess_cursor (fm : Form) : fm.exitProcess.cursor = fm.cursor := by
  unfold Form.exitProcess
  repeat' split
  all_goals simp [Form.applyExitTest]
  split_ifs <;> simp [Form.setError, Form.mapTag]
@[simp] theorem Form.exitProcess_insert (fm : Form) : fm.exitProcess.insert = fm.insert := by
  unfold Form.exitProcess
  repeat' split
  all_goals simp [Form.applyExitTest]
  split_ifs <;> simp [Form.setError, Form.mapTag]
@[simp] theorem Form.exitProcess_history (fm : Form) : fm.exitProcess.history = fm.history := by
  unfold Form.exitProcess
  repeat' split
  all_goals simp [Form.applyExitTest]
  split_ifs <;> simp [Form.setError, Form.mapTag]
@[simp] theorem Form.exitProcess_window (fm : Form) : fm.exitProcess.window = fm.window := by
  unfold Form.exitProcess
  repeat' split
  · show (fm.applyExitTest _).window = _
    simp only [Form.applyExitTest, Form.recomputeNaming_window]
    split_ifs <;> simp [Form.setError, Form.mapTag]
  · rfl
  · rfl

/-- A move puts the cursor where it says. -/
@[simp] theorem Form.moveTo_cursor (fm : Form) (i push : Bool) (p : Nat) :
    (fm.moveTo i push p).cursor = p := by
  unfold Form.moveTo; dsimp only; split_ifs <;> rfl

end Sys2Proof.Machine
end

