-- ==== Sys2Proof/Laws/Shared.lean ====
section
/-! SUPPORT. For each shared operation, one lemma that says once everything it can do. -/

namespace Sys2Proof.Machine

open Sys2Proof

set_option Elab.async false

/-- The step of a directive: it is reached and taken, reached and refused, cut short, or not due
(R42, R43). -/
theorem State.directive_cases (s : State) (d : Instr) (body : State → Except DirError State) :
    (∃ left t, s.fetch = .directive d left ∧ body s = .ok t ∧
      s.directive d body = t.reachOffset left) ∨
    (∃ left e, s.fetch = .directive d left ∧ body s = .error e ∧
      s.directive d body = s.refuseDirective e) ∨
    (∃ code, s.fetch = .short code ∧ directiveCode d = some code ∧
      s.directive d body = s.refuseDirective .length) ∨
    (s.directive d body = s) := by
  unfold State.directive
  cases s.fetch with
  | nothing | unknown code => simp
  | short code => by_cases hd : directiveCode d = some code <;> simp [hd]
  | directive reached left =>
    by_cases hd : reached = d
    · subst hd
      cases body s with
      | ok t => exact .inl ⟨left, t, by simp⟩
      | error e => exact .inr (.inl ⟨left, e, by simp⟩)
    · simp [hd]

/-- A directive that is reached and accepted. -/
theorem State.directive_ok {s t : State} {d : Instr} {left : Nat}
    {body : State → Except DirError State} (hf : s.fetch = .directive d left)
    (hb : body s = .ok t) : s.directive d body = t.reachOffset left := by
  simp [State.directive, hf, hb]

/-- A directive that is reached and refused. -/
theorem State.directive_error {s : State} {d : Instr} {left : Nat} {e : DirError}
    {body : State → Except DirError State} (hf : s.fetch = .directive d left)
    (hb : body s = .error e) : s.directive d body = s.refuseDirective e := by
  simp [State.directive, hf, hb]

/-- What stands at an offset is due in APPLYING only, while application is not paused (R42). -/
theorem State.fetch_due {s : State} (h : s.fetch ≠ .nothing) :
    ∃ offset, s.stream.phase = .applying offset none := by
  unfold State.fetch at h
  split at h
  · next offset hp => exact ⟨offset, hp⟩
  · exact absurd rfl h

/-- The offset moves on, the block ends and its chain goes on, or the chain ends (R42, R44). -/
theorem State.reachOffset_cases (s : State) (left : Nat) :
    (left ≠ 0 ∧ s.reachOffset left = { s with
      stream := { s.stream with phase := .applying (s.block.length - 1 - left) none } }) ∨
    (left = 0 ∧ chainContinues (s.block.getLastD 0) = true ∧ s.reachOffset left = { s with
      stream := { s.stream with phase := .chained chainUnits }
      line := { s.line with buffers := s.line.buffers.tail } }) ∨
    (left = 0 ∧ chainContinues (s.block.getLastD 0) = false ∧
      s.reachOffset left = s.endChain ((s.block.getD 1 0).getLsbD 0)) := by
  unfold State.reachOffset State.examineChainByte
  dsimp only
  by_cases hl : left = 0
  · right
    rw [if_pos hl]
    by_cases hc : chainContinues (s.block.getLastD 0) = true
    · left
      refine ⟨hl, hc, ?_⟩
      rw [if_pos (by exact hc)]
    · right
      refine ⟨hl, by simpa using hc, ?_⟩
      rw [if_neg (by exact hc)]
      rfl
  · exact .inl ⟨hl, by rw [if_neg hl]⟩

/-- An entry is taken in OPEN, from the head of the queue, and only the queue changes (R95). -/
theorem State.takeEntry_some {s t : State} {e : QueueEntry} (h : s.takeEntry e = some t) :
    ∃ rest, s.input.entry = .openEntry ∧ s.input.typeAhead = e :: rest ∧
      t = { s with input := { s.input with typeAhead := rest } } := by
  unfold State.takeEntry at h
  split at h
  · next hd rest he hq =>
    split_ifs at h with hh
    subst hh
    exact ⟨rest, he, hq, by simpa using h.symm⟩
  · cases h

/-- An entry at the head of the queue in OPEN is taken. -/
theorem State.takeEntry_of {s : State} {e : QueueEntry} {rest : List QueueEntry}
    (he : s.input.entry = .openEntry) (hq : s.input.typeAhead = e :: rest) :
    s.takeEntry e = some { s with input := { s.input with typeAhead := rest } } := by
  simp [State.takeEntry, he, hq]

/-- An editing action is carried out, refused as a key, or not due (R95, R97, R117). -/
theorem State.editAction_cases (s : State) (a : Action) (body : State → Option State) :
    (∃ t u, s.takeEntry (.action a) = some t ∧ body t = some u ∧ s.editAction a body = u) ∨
    (∃ t, s.takeEntry (.action a) = some t ∧ body t = none ∧
      s.editAction a body = t.keyRefused) ∨
    (s.takeEntry (.action a) = none ∧ s.editAction a body = s) := by
  unfold State.editAction
  cases h : s.takeEntry (.action a) with
  | none => exact .inr (.inr ⟨rfl, rfl⟩)
  | some t =>
    cases hb : body t with
    | none => exact .inr (.inl ⟨t, rfl, hb, by simp [hb]⟩)
    | some u => exact .inl ⟨t, u, rfl, hb, by simp [hb]⟩

/-- A cursor move is carried out or not due (R95, R101). -/
theorem State.moveAction_cases (s : State) (a : Action) (push : Bool) (goal : Form → Nat) :
    (∃ t, s.takeEntry (.action a) = some t ∧
      s.moveAction a push goal =
        { t with form := t.form.moveTo t.tables.options.insertAtEntry push (goal t.form) }) ∨
    (s.takeEntry (.action a) = none ∧ s.moveAction a push goal = s) := by
  unfold State.moveAction
  cases h : s.takeEntry (.action a) with
  | none => exact .inr ⟨rfl, rfl⟩
  | some t => exact .inl ⟨t, rfl, rfl⟩

/-- A move within the current field, or outside all fields, places the cursor; any other is a change of
current field (R101). -/
theorem Form.moveTo_cases (fm : Form) (i push : Bool) (p : Nat) :
    (fm.current.map (·.tag) = (fm.fieldAt p).map (·.tag) ∧
      fm.moveTo i push p = { fm with cursor := p }) ∨
    (fm.current.map (·.tag) ≠ (fm.fieldAt p).map (·.tag) ∧
      fm.moveTo i push p = { fm.exitProcess with
        history := if push then pushLeft fm.exitProcess.history fm.current
          else fm.exitProcess.history
        cursor := p
        insert := if (fm.fieldAt p).isSome then i else fm.exitProcess.insert
        visit := false }) := by
  unfold Form.moveTo
  dsimp only
  by_cases h : fm.current.map (·.tag) = (fm.fieldAt p).map (·.tag)
  · exact .inl ⟨h, by rw [if_pos h]⟩
  · exact .inr ⟨h, by rw [if_neg h]⟩

/-- A host write of one cell is held off, done in a field, or done outside all fields (R37, R38). -/
theorem Form.hostCell_cases (fm : Form) (p : Nat) (c : Cell) :
    (∃ f, f.modified = true ∧ (fm.fieldAt p = some f ∨
        (fm.fieldAt p = none ∧ fm.suspendedAt p = some f)) ∧
      fm.hostCell p c = (fm.mapTag f.tag fun g => { g with collision := true }, none)) ∨
    (∃ f, f.modified = false ∧ (fm.fieldAt p = some f ∨
        (fm.fieldAt p = none ∧ fm.suspendedAt p = some f)) ∧
      fm.hostCell p c = (fm.setScreen p c, some f.tag)) ∨
    (fm.fieldAt p = none ∧ fm.suspendedAt p = none ∧
      fm.hostCell p c = (fm.setScreen p c, none)) := by
  unfold Form.hostCell
  cases ha : fm.fieldAt p with
  | some f =>
    cases hm : f.modified with
    | true => exact .inl ⟨f, hm, .inl rfl, by simp [hm]⟩
    | false => exact .inr (.inl ⟨f, hm, .inl rfl, by simp [hm]⟩)
  | none =>
    cases hs : fm.suspendedAt p with
    | some f =>
      cases hm : f.modified with
      | true => exact .inl ⟨f, hm, .inr ⟨rfl, rfl⟩, by simp [hm]⟩
      | false => exact .inr (.inl ⟨f, hm, .inr ⟨rfl, rfl⟩, by simp [hm]⟩)
    | none => exact .inr (.inr ⟨rfl, rfl, by simp⟩)

/-- A tone request begins its pattern, goes to the slot, or changes nothing (R172). -/
theorem Tone.request_cases (t : Tone) (p : Pattern) :
    (t.request p = { t with playing := p.begin } ∧
      ∀ now, t.playing = some now → now.pattern.rank < p.rank) ∨
    (t.request p = { t with pending := some p } ∧ p ≠ .click ∧
      ∀ q, t.pending = some q → q.rank < p.rank) ∨
    (t.request p = t ∧ t.playing ≠ none) := by
  unfold Tone.request
  cases hn : t.playing with
  | none => exact .inl ⟨rfl, by simp⟩
  | some now =>
    dsimp only
    split_ifs with h1 h2
    · exact .inl ⟨rfl, fun n h => by cases h; exact h1⟩
    · exact .inr (.inr ⟨rfl, by simp⟩)
    · cases hp : t.pending with
      | none => exact .inr (.inl ⟨rfl, h2, by simp⟩)
      | some q =>
        dsimp only
        split_ifs with h3
        · exact .inr (.inl ⟨rfl, h2, fun r h => by cases h; exact h3⟩)
        · exact .inr (.inr ⟨rfl, by simp⟩)

/-- The transmitter that chooses is busy, takes a notice, takes the reply, or stays idle (R177). -/
theorem Line.choose_cases (l : Line) :
    (l.sending ≠ none ∧ l.choose = l) ∨
    (∃ n rest, l.sending = none ∧ l.notices = n :: rest ∧ l.choose = { l with
      sending := some { isReply := false, frame := frameOf n.payload }, notices := rest }) ∨
    (∃ p, l.sending = none ∧ l.notices = [] ∧ l.reply = some p ∧ l.choose = { l with
      sending := some { isReply := true, frame := frameOf p } }) ∨
    (l.sending = none ∧ l.notices = [] ∧ l.reply = none ∧ l.choose = l) := by
  unfold Line.choose
  cases hs : l.sending with
  | some f => exact .inl ⟨by simp, rfl⟩
  | none =>
    cases hn : l.notices with
    | cons n rest => exact .inr (.inl ⟨n, rest, rfl, rfl, rfl⟩)
    | nil =>
      cases hr : l.reply with
      | some p => exact .inr (.inr (.inl ⟨p, rfl, rfl, rfl, rfl⟩))
      | none => exact .inr (.inr (.inr ⟨rfl, rfl, rfl, rfl⟩))

/-- The notice queue never holds more than 4 entries (R177). -/
theorem Line.queueNotice_length (l : Line) (n : Notice) (h : l.notices.length ≤ noticeRoom) :
    (l.queueNotice n).notices.length ≤ noticeRoom := by
  unfold Line.queueNotice
  split_ifs with hr
  · simpa using hr
  · exact h

/-- One cell of the display: none is due, the next column follows, or the row is complete and the counter
advances (R11). -/
theorem State.sendCell_cases (s : State) :
    (s.display.column = none ∧ s.sendCell = s) ∨
    ∃ c, s.display.column = some c ∧
      let sent := s.display.sent ++ [s.renderCell (s.display.row * screenCols + c)]
      (c + 1 < screenCols ∧ s.sendCell = { s with
        display := { s.display with column := some (c + 1), sent := sent } }) ∨
      (screenCols ≤ c + 1 ∧ s.sendCell = { s with
        display := { s.display with
          column := none, row := nextRow s.display.row, sent := sent } }) := by
  unfold State.sendCell Display.cellSent
  cases s.display.column with
  | none => exact .inl ⟨rfl, rfl⟩
  | some c =>
    refine .inr ⟨c, rfl, ?_⟩
    by_cases hl : c + 1 < screenCols
    · exact .inl ⟨hl, by simp only [if_pos hl]⟩
    · exact .inr ⟨by omega, by simp only [if_neg hl]⟩

/-- The check of one deadline fires its entry or does nothing (R168). -/
theorem State.checkDeadline_cases (s : State) (i : Nat) :
    (s.clock.isDue (s.clock.deadline i) = true ∧ s.checkDeadline i = s.fireDeadline i) ∨
    (s.clock.isDue (s.clock.deadline i) = false ∧ s.checkDeadline i = s) := by
  unfold State.checkDeadline
  cases s.clock.isDue (s.clock.deadline i) with
  | true => exact .inl ⟨rfl, by simp⟩
  | false => exact .inr ⟨rfl, by simp⟩

/-- A push keeps the history within 8 tags (R110). -/
theorem pushHistory_length (history : List Nat) (t : Nat) (h : history.length ≤ historyRoom) :
    (pushHistory history t).length ≤ historyRoom := by
  unfold pushHistory
  split_ifs
  · exact h
  · simp [List.length_take]

end Sys2Proof.Machine
end

