-- ==== Sys2Proof/Laws/State.lean ====
section
/-! SUPPORT. What each update of the state leaves: one lemma for each part and each update, so that no
later proof unfolds a record update. -/

namespace Sys2Proof.Machine

open Sys2Proof

set_option Elab.async false

/-! ## The tone line, the transmitter and the reply buffer -/

@[simp] theorem State.sound_form (s : State) (p : Pattern) : (s.sound p).form = s.form := rfl
@[simp] theorem State.sound_tables (s : State) (p : Pattern) : (s.sound p).tables = s.tables := rfl
@[simp] theorem State.sound_input (s : State) (p : Pattern) : (s.sound p).input = s.input := rfl
@[simp] theorem State.sound_stream (s : State) (p : Pattern) : (s.sound p).stream = s.stream := rfl
@[simp] theorem State.sound_line (s : State) (p : Pattern) : (s.sound p).line = s.line := rfl
@[simp] theorem State.sound_clock (s : State) (p : Pattern) : (s.sound p).clock = s.clock := rfl
@[simp] theorem State.sound_display (s : State) (p : Pattern) : (s.sound p).display = s.display := rfl
@[simp] theorem State.sound_start (s : State) (p : Pattern) : (s.sound p).start = s.start := rfl
@[simp] theorem State.sound_pending (s : State) (p : Pattern) : (s.sound p).pending = s.pending := rfl
@[simp] theorem State.sound_tone (s : State) (p : Pattern) :
    (s.sound p).tone = s.tone.request p := rfl
@[simp] theorem State.transmit_form (s : State) : (s.transmit).form = s.form := by
  unfold State.transmit; split <;> rfl
@[simp] theorem State.transmit_tables (s : State) : (s.transmit).tables = s.tables := by
  unfold State.transmit; split <;> rfl
@[simp] theorem State.transmit_input (s : State) : (s.transmit).input = s.input := by
  unfold State.transmit; split <;> rfl
@[simp] theorem State.transmit_stream (s : State) : (s.transmit).stream = s.stream := by
  unfold State.transmit; split <;> rfl
@[simp] theorem State.transmit_clock (s : State) : (s.transmit).clock = s.clock := by
  unfold State.transmit; split <;> rfl
@[simp] theorem State.transmit_tone (s : State) : (s.transmit).tone = s.tone := by
  unfold State.transmit; split <;> rfl
@[simp] theorem State.transmit_display (s : State) : (s.transmit).display = s.display := by
  unfold State.transmit; split <;> rfl
@[simp] theorem State.transmit_start (s : State) : (s.transmit).start = s.start := by
  unfold State.transmit; split <;> rfl
@[simp] theorem State.transmit_pending (s : State) : (s.transmit).pending = s.pending := by
  unfold State.transmit; split <;> rfl
@[simp] theorem State.transmit_line (s : State) :
    s.transmit.line = if s.started then s.line.choose else s.line := by
  unfold State.transmit; split <;> rfl
@[simp] theorem State.offer_form (s : State) (n : Notice) : (s.offer n).form = s.form := by
  simp [State.offer]
@[simp] theorem State.offer_tables (s : State) (n : Notice) : (s.offer n).tables = s.tables := by
  simp [State.offer]
@[simp] theorem State.offer_input (s : State) (n : Notice) : (s.offer n).input = s.input := by
  simp [State.offer]
@[simp] theorem State.offer_stream (s : State) (n : Notice) : (s.offer n).stream = s.stream := by
  simp [State.offer]
@[simp] theorem State.offer_clock (s : State) (n : Notice) : (s.offer n).clock = s.clock := by
  simp [State.offer]
@[simp] theorem State.offer_tone (s : State) (n : Notice) : (s.offer n).tone = s.tone := by
  simp [State.offer]
@[simp] theorem State.offer_display (s : State) (n : Notice) : (s.offer n).display = s.display := by
  simp [State.offer]
@[simp] theorem State.offer_start (s : State) (n : Notice) : (s.offer n).start = s.start := by
  simp [State.offer]
@[simp] theorem State.offer_pending (s : State) (n : Notice) : (s.offer n).pending = s.pending := by
  simp [State.offer]
@[simp] theorem State.claimReply_form (s : State) (b : List Byte) : (s.claimReply b).form = s.form := by
  simp [State.claimReply]
@[simp] theorem State.claimReply_tables (s : State) (b : List Byte) : (s.claimReply b).tables = s.tables := by
  simp [State.claimReply]
@[simp] theorem State.claimReply_input (s : State) (b : List Byte) : (s.claimReply b).input = s.input := by
  simp [State.claimReply]
@[simp] theorem State.claimReply_stream (s : State) (b : List Byte) : (s.claimReply b).stream = s.stream := by
  simp [State.claimReply]
@[simp] theorem State.claimReply_clock (s : State) (b : List Byte) : (s.claimReply b).clock = s.clock := by
  simp [State.claimReply]
@[simp] theorem State.claimReply_tone (s : State) (b : List Byte) : (s.claimReply b).tone = s.tone := by
  simp [State.claimReply]
@[simp] theorem State.claimReply_display (s : State) (b : List Byte) : (s.claimReply b).display = s.display := by
  simp [State.claimReply]
@[simp] theorem State.claimReply_start (s : State) (b : List Byte) : (s.claimReply b).start = s.start := by
  simp [State.claimReply]
@[simp] theorem State.claimReply_pending (s : State) (b : List Byte) : (s.claimReply b).pending = s.pending := by
  simp [State.claimReply]

/-! ## The stream -/

@[simp] theorem State.endChain_form (s : State) (release : Bool) : (s.endChain release).form = s.form := rfl
@[simp] theorem State.endChain_tables (s : State) (release : Bool) : (s.endChain release).tables = s.tables := rfl
@[simp] theorem State.endChain_clock (s : State) (release : Bool) : (s.endChain release).clock = s.clock := rfl
@[simp] theorem State.endChain_tone (s : State) (release : Bool) : (s.endChain release).tone = s.tone := rfl
@[simp] theorem State.endChain_display (s : State) (release : Bool) : (s.endChain release).display = s.display := rfl
@[simp] theorem State.endChain_start (s : State) (release : Bool) : (s.endChain release).start = s.start := rfl
@[simp] theorem State.endChain_pending (s : State) (release : Bool) : (s.endChain release).pending = s.pending := rfl
@[simp] theorem State.examineChainByte_form (s : State) : (s.examineChainByte).form = s.form := by
  unfold State.examineChainByte; split <;> rfl
@[simp] theorem State.examineChainByte_tables (s : State) : (s.examineChainByte).tables = s.tables := by
  unfold State.examineChainByte; split <;> rfl
@[simp] theorem State.examineChainByte_clock (s : State) : (s.examineChainByte).clock = s.clock := by
  unfold State.examineChainByte; split <;> rfl
@[simp] theorem State.examineChainByte_tone (s : State) : (s.examineChainByte).tone = s.tone := by
  unfold State.examineChainByte; split <;> rfl
@[simp] theorem State.examineChainByte_display (s : State) : (s.examineChainByte).display = s.display := by
  unfold State.examineChainByte; split <;> rfl
@[simp] theorem State.examineChainByte_start (s : State) : (s.examineChainByte).start = s.start := by
  unfold State.examineChainByte; split <;> rfl
@[simp] theorem State.examineChainByte_pending (s : State) : (s.examineChainByte).pending = s.pending := by
  unfold State.examineChainByte; split <;> rfl
@[simp] theorem State.reachOffset_form (s : State) (left : Nat) : (s.reachOffset left).form = s.form := by
  unfold State.reachOffset; split <;> simp
@[simp] theorem State.reachOffset_tables (s : State) (left : Nat) : (s.reachOffset left).tables = s.tables := by
  unfold State.reachOffset; split <;> simp
@[simp] theorem State.reachOffset_clock (s : State) (left : Nat) : (s.reachOffset left).clock = s.clock := by
  unfold State.reachOffset; split <;> simp
@[simp] theorem State.reachOffset_tone (s : State) (left : Nat) : (s.reachOffset left).tone = s.tone := by
  unfold State.reachOffset; split <;> simp
@[simp] theorem State.reachOffset_display (s : State) (left : Nat) : (s.reachOffset left).display = s.display := by
  unfold State.reachOffset; split <;> simp
@[simp] theorem State.reachOffset_start (s : State) (left : Nat) : (s.reachOffset left).start = s.start := by
  unfold State.reachOffset; split <;> simp
@[simp] theorem State.reachOffset_pending (s : State) (left : Nat) : (s.reachOffset left).pending = s.pending := by
  unfold State.reachOffset; split <;> simp
@[simp] theorem State.refuseDirective_form (s : State) (e : DirError) : (s.refuseDirective e).form = s.form := by
  simp [State.refuseDirective]
@[simp] theorem State.refuseDirective_tables (s : State) (e : DirError) : (s.refuseDirective e).tables = s.tables := by
  simp [State.refuseDirective]
@[simp] theorem State.refuseDirective_clock (s : State) (e : DirError) : (s.refuseDirective e).clock = s.clock := by
  simp [State.refuseDirective]
@[simp] theorem State.refuseDirective_tone (s : State) (e : DirError) : (s.refuseDirective e).tone = s.tone := by
  simp [State.refuseDirective]
@[simp] theorem State.refuseDirective_display (s : State) (e : DirError) : (s.refuseDirective e).display = s.display := by
  simp [State.refuseDirective]
@[simp] theorem State.refuseDirective_start (s : State) (e : DirError) : (s.refuseDirective e).start = s.start := by
  simp [State.refuseDirective]
@[simp] theorem State.refuseDirective_pending (s : State) (e : DirError) : (s.refuseDirective e).pending = s.pending := by
  simp [State.refuseDirective]
@[simp] theorem State.beginBlock_form (s : State) : (s.beginBlock).form = s.form := by
  simp [State.beginBlock]
@[simp] theorem State.beginBlock_tables (s : State) : (s.beginBlock).tables = s.tables := by
  simp [State.beginBlock]
@[simp] theorem State.beginBlock_clock (s : State) : (s.beginBlock).clock = s.clock := by
  simp [State.beginBlock]
@[simp] theorem State.beginBlock_tone (s : State) : (s.beginBlock).tone = s.tone := by
  simp [State.beginBlock]
@[simp] theorem State.beginBlock_display (s : State) : (s.beginBlock).display = s.display := by
  simp [State.beginBlock]
@[simp] theorem State.beginBlock_start (s : State) : (s.beginBlock).start = s.start := by
  simp [State.beginBlock]
@[simp] theorem State.beginBlock_pending (s : State) : (s.beginBlock).pending = s.pending := by
  simp [State.beginBlock]
@[simp] theorem State.abandonChain_form (s : State) : (s.abandonChain).form = s.form := by
  simp [State.abandonChain]
@[simp] theorem State.abandonChain_tables (s : State) : (s.abandonChain).tables = s.tables := by
  simp [State.abandonChain]
@[simp] theorem State.abandonChain_clock (s : State) : (s.abandonChain).clock = s.clock := by
  simp [State.abandonChain]
@[simp] theorem State.abandonChain_tone (s : State) : (s.abandonChain).tone = s.tone := by
  simp [State.abandonChain]
@[simp] theorem State.abandonChain_display (s : State) : (s.abandonChain).display = s.display := by
  simp [State.abandonChain]
@[simp] theorem State.abandonChain_start (s : State) : (s.abandonChain).start = s.start := by
  simp [State.abandonChain]
@[simp] theorem State.abandonChain_pending (s : State) : (s.abandonChain).pending = s.pending := by
  simp [State.abandonChain]

/-! ## Endings of an entry -/

@[simp] theorem State.submitAccepted_form (s : State) : (s.submitAccepted).form = s.form := rfl
@[simp] theorem State.submitAccepted_tables (s : State) : (s.submitAccepted).tables = s.tables := rfl
@[simp] theorem State.submitAccepted_stream (s : State) : (s.submitAccepted).stream = s.stream := rfl
@[simp] theorem State.submitAccepted_line (s : State) : (s.submitAccepted).line = s.line := rfl
@[simp] theorem State.submitAccepted_clock (s : State) : (s.submitAccepted).clock = s.clock := rfl
@[simp] theorem State.submitAccepted_tone (s : State) : (s.submitAccepted).tone = s.tone := rfl
@[simp] theorem State.submitAccepted_display (s : State) : (s.submitAccepted).display = s.display := rfl
@[simp] theorem State.submitAccepted_start (s : State) : (s.submitAccepted).start = s.start := rfl
@[simp] theorem State.submitAccepted_pending (s : State) : (s.submitAccepted).pending = s.pending := rfl
@[simp] theorem State.keyRefused_form (s : State) : (s.keyRefused).form = s.form := by
  unfold State.keyRefused; dsimp only; split <;> rfl
@[simp] theorem State.keyRefused_tables (s : State) : (s.keyRefused).tables = s.tables := by
  unfold State.keyRefused; dsimp only; split <;> rfl
@[simp] theorem State.keyRefused_stream (s : State) : (s.keyRefused).stream = s.stream := by
  unfold State.keyRefused; dsimp only; split <;> rfl
@[simp] theorem State.keyRefused_line (s : State) : (s.keyRefused).line = s.line := by
  unfold State.keyRefused; dsimp only; split <;> rfl
@[simp] theorem State.keyRefused_clock (s : State) : (s.keyRefused).clock = s.clock := by
  unfold State.keyRefused; dsimp only; split <;> rfl
@[simp] theorem State.keyRefused_display (s : State) : (s.keyRefused).display = s.display := by
  unfold State.keyRefused; dsimp only; split <;> rfl
@[simp] theorem State.keyRefused_start (s : State) : (s.keyRefused).start = s.start := by
  unfold State.keyRefused; dsimp only; split <;> rfl
@[simp] theorem State.keyRefused_pending (s : State) : (s.keyRefused).pending = s.pending := by
  unfold State.keyRefused; dsimp only; split <;> rfl
@[simp] theorem State.scanRefused_form (s : State) : (s.scanRefused).form = s.form := rfl
@[simp] theorem State.scanRefused_tables (s : State) : (s.scanRefused).tables = s.tables := rfl
@[simp] theorem State.scanRefused_input (s : State) : (s.scanRefused).input = s.input := rfl
@[simp] theorem State.scanRefused_stream (s : State) : (s.scanRefused).stream = s.stream := rfl
@[simp] theorem State.scanRefused_line (s : State) : (s.scanRefused).line = s.line := rfl
@[simp] theorem State.scanRefused_clock (s : State) : (s.scanRefused).clock = s.clock := rfl
@[simp] theorem State.scanRefused_display (s : State) : (s.scanRefused).display = s.display := rfl
@[simp] theorem State.scanRefused_start (s : State) : (s.scanRefused).start = s.start := rfl
@[simp] theorem State.scanRefused_pending (s : State) : (s.scanRefused).pending = s.pending := rfl

/-! ## Arrivals -/

@[simp] theorem State.queueAction_form (s : State) (a : Action) : (s.queueAction a).form = s.form := by
  unfold State.queueAction; split <;> rfl
@[simp] theorem State.queueAction_tables (s : State) (a : Action) : (s.queueAction a).tables = s.tables := by
  unfold State.queueAction; split <;> rfl
@[simp] theorem State.queueAction_stream (s : State) (a : Action) : (s.queueAction a).stream = s.stream := by
  unfold State.queueAction; split <;> rfl
@[simp] theorem State.queueAction_line (s : State) (a : Action) : (s.queueAction a).line = s.line := by
  unfold State.queueAction; split <;> rfl
@[simp] theorem State.queueAction_clock (s : State) (a : Action) : (s.queueAction a).clock = s.clock := by
  unfold State.queueAction; split <;> rfl
@[simp] theorem State.queueAction_display (s : State) (a : Action) : (s.queueAction a).display = s.display := by
  unfold State.queueAction; split <;> rfl
@[simp] theorem State.queueAction_start (s : State) (a : Action) : (s.queueAction a).start = s.start := by
  unfold State.queueAction; split <;> rfl
@[simp] theorem State.queueAction_pending (s : State) (a : Action) : (s.queueAction a).pending = s.pending := by
  unfold State.queueAction; split <;> rfl
@[simp] theorem State.actionArrives_form (s : State) (a : Action) : (s.actionArrives a).form = s.form := by
  unfold State.actionArrives; split <;> simp
@[simp] theorem State.actionArrives_tables (s : State) (a : Action) : (s.actionArrives a).tables = s.tables := by
  unfold State.actionArrives; split <;> simp
@[simp] theorem State.actionArrives_stream (s : State) (a : Action) : (s.actionArrives a).stream = s.stream := by
  unfold State.actionArrives; split <;> simp
@[simp] theorem State.actionArrives_line (s : State) (a : Action) : (s.actionArrives a).line = s.line := by
  unfold State.actionArrives; split <;> simp
@[simp] theorem State.actionArrives_clock (s : State) (a : Action) : (s.actionArrives a).clock = s.clock := by
  unfold State.actionArrives; split <;> simp
@[simp] theorem State.actionArrives_display (s : State) (a : Action) : (s.actionArrives a).display = s.display := by
  unfold State.actionArrives; split <;> simp
@[simp] theorem State.actionArrives_start (s : State) (a : Action) : (s.actionArrives a).start = s.start := by
  unfold State.actionArrives; split <;> simp
@[simp] theorem State.actionArrives_pending (s : State) (a : Action) : (s.actionArrives a).pending = s.pending := by
  unfold State.actionArrives; split <;> simp
@[simp] theorem State.resetArrives_form (s : State) : (s.resetArrives).form = s.form := by
  unfold State.resetArrives; split <;> simp
@[simp] theorem State.resetArrives_tables (s : State) : (s.resetArrives).tables = s.tables := by
  unfold State.resetArrives; split <;> simp
@[simp] theorem State.resetArrives_stream (s : State) : (s.resetArrives).stream = s.stream := by
  unfold State.resetArrives; split <;> simp
@[simp] theorem State.resetArrives_line (s : State) : (s.resetArrives).line = s.line := by
  unfold State.resetArrives; split <;> simp
@[simp] theorem State.resetArrives_clock (s : State) : (s.resetArrives).clock = s.clock := by
  unfold State.resetArrives; split <;> simp
@[simp] theorem State.resetArrives_display (s : State) : (s.resetArrives).display = s.display := by
  unfold State.resetArrives; split <;> simp
@[simp] theorem State.resetArrives_start (s : State) : (s.resetArrives).start = s.start := by
  unfold State.resetArrives; split <;> simp
@[simp] theorem State.resetArrives_pending (s : State) : (s.resetArrives).pending = s.pending := by
  unfold State.resetArrives; split <;> simp
@[simp] theorem State.keyPressed_form (s : State) (code : Nat) : (s.keyPressed code).form = s.form := by
  unfold State.keyPressed; split <;> simp
@[simp] theorem State.keyPressed_tables (s : State) (code : Nat) : (s.keyPressed code).tables = s.tables := by
  unfold State.keyPressed; split <;> simp
@[simp] theorem State.keyPressed_stream (s : State) (code : Nat) : (s.keyPressed code).stream = s.stream := by
  unfold State.keyPressed; split <;> simp
@[simp] theorem State.keyPressed_line (s : State) (code : Nat) : (s.keyPressed code).line = s.line := by
  unfold State.keyPressed; split <;> simp
@[simp] theorem State.keyPressed_clock (s : State) (code : Nat) : (s.keyPressed code).clock = s.clock := by
  unfold State.keyPressed; split <;> simp
@[simp] theorem State.keyPressed_display (s : State) (code : Nat) : (s.keyPressed code).display = s.display := by
  unfold State.keyPressed; split <;> simp
@[simp] theorem State.keyPressed_start (s : State) (code : Nat) : (s.keyPressed code).start = s.start := by
  unfold State.keyPressed; split <;> simp
@[simp] theorem State.keyPressed_pending (s : State) (code : Nat) : (s.keyPressed code).pending = s.pending := by
  unfold State.keyPressed; split <;> simp
@[simp] theorem State.keyByte_form (s : State) (b : Byte) : (s.keyByte b).form = s.form := by
  unfold State.keyByte; split_ifs <;> simp
@[simp] theorem State.keyByte_tables (s : State) (b : Byte) : (s.keyByte b).tables = s.tables := by
  unfold State.keyByte; split_ifs <;> simp
@[simp] theorem State.keyByte_stream (s : State) (b : Byte) : (s.keyByte b).stream = s.stream := by
  unfold State.keyByte; split_ifs <;> simp
@[simp] theorem State.keyByte_line (s : State) (b : Byte) : (s.keyByte b).line = s.line := by
  unfold State.keyByte; split_ifs <;> simp
@[simp] theorem State.keyByte_clock (s : State) (b : Byte) : (s.keyByte b).clock = s.clock := by
  unfold State.keyByte; split_ifs <;> simp
@[simp] theorem State.keyByte_display (s : State) (b : Byte) : (s.keyByte b).display = s.display := by
  unfold State.keyByte; split_ifs <;> simp
@[simp] theorem State.keyByte_start (s : State) (b : Byte) : (s.keyByte b).start = s.start := by
  unfold State.keyByte; split_ifs <;> simp
@[simp] theorem State.keyByte_pending (s : State) (b : Byte) : (s.keyByte b).pending = s.pending := by
  unfold State.keyByte; split_ifs <;> simp
@[simp] theorem State.scanCompleted_form (s : State) : (s.scanCompleted).form = s.form := by
  unfold State.scanCompleted; dsimp only; split_ifs <;> rfl
@[simp] theorem State.scanCompleted_tables (s : State) : (s.scanCompleted).tables = s.tables := by
  unfold State.scanCompleted; dsimp only; split_ifs <;> rfl
@[simp] theorem State.scanCompleted_stream (s : State) : (s.scanCompleted).stream = s.stream := by
  unfold State.scanCompleted; dsimp only; split_ifs <;> rfl
@[simp] theorem State.scanCompleted_line (s : State) : (s.scanCompleted).line = s.line := by
  unfold State.scanCompleted; dsimp only; split_ifs <;> rfl
@[simp] theorem State.scanCompleted_clock (s : State) : (s.scanCompleted).clock = s.clock := by
  unfold State.scanCompleted; dsimp only; split_ifs <;> rfl
@[simp] theorem State.scanCompleted_display (s : State) : (s.scanCompleted).display = s.display := by
  unfold State.scanCompleted; dsimp only; split_ifs <;> rfl
@[simp] theorem State.scanCompleted_start (s : State) : (s.scanCompleted).start = s.start := by
  unfold State.scanCompleted; dsimp only; split_ifs <;> rfl
@[simp] theorem State.scanCompleted_pending (s : State) : (s.scanCompleted).pending = s.pending := by
  unfold State.scanCompleted; dsimp only; split_ifs <;> rfl

/-! ## The receiver and the display -/

@[simp] theorem State.frameFault_form (s : State) : (s.frameFault).form = s.form := by
  simp [State.frameFault]
@[simp] theorem State.frameFault_tables (s : State) : (s.frameFault).tables = s.tables := by
  simp [State.frameFault]
@[simp] theorem State.frameFault_input (s : State) : (s.frameFault).input = s.input := by
  simp [State.frameFault]
@[simp] theorem State.frameFault_stream (s : State) : (s.frameFault).stream = s.stream := by
  simp [State.frameFault]
@[simp] theorem State.frameFault_clock (s : State) : (s.frameFault).clock = s.clock := by
  simp [State.frameFault]
@[simp] theorem State.frameFault_tone (s : State) : (s.frameFault).tone = s.tone := by
  simp [State.frameFault]
@[simp] theorem State.frameFault_display (s : State) : (s.frameFault).display = s.display := by
  simp [State.frameFault]
@[simp] theorem State.frameFault_start (s : State) : (s.frameFault).start = s.start := by
  simp [State.frameFault]
@[simp] theorem State.frameFault_pending (s : State) : (s.frameFault).pending = s.pending := by
  simp [State.frameFault]
@[simp] theorem State.sendCell_form (s : State) : (s.sendCell).form = s.form := by
  unfold State.sendCell; split <;> rfl
@[simp] theorem State.sendCell_tables (s : State) : (s.sendCell).tables = s.tables := by
  unfold State.sendCell; split <;> rfl
@[simp] theorem State.sendCell_input (s : State) : (s.sendCell).input = s.input := by
  unfold State.sendCell; split <;> rfl
@[simp] theorem State.sendCell_stream (s : State) : (s.sendCell).stream = s.stream := by
  unfold State.sendCell; split <;> rfl
@[simp] theorem State.sendCell_line (s : State) : (s.sendCell).line = s.line := by
  unfold State.sendCell; split <;> rfl
@[simp] theorem State.sendCell_clock (s : State) : (s.sendCell).clock = s.clock := by
  unfold State.sendCell; split <;> rfl
@[simp] theorem State.sendCell_tone (s : State) : (s.sendCell).tone = s.tone := by
  unfold State.sendCell; split <;> rfl
@[simp] theorem State.sendCell_start (s : State) : (s.sendCell).start = s.start := by
  unfold State.sendCell; split <;> rfl
@[simp] theorem State.sendCell_pending (s : State) : (s.sendCell).pending = s.pending := by
  unfold State.sendCell; split <;> rfl
@[simp] theorem State.sendCells_form (s : State) (n : Nat) : (s.sendCells n).form = s.form := by
  induction n generalizing s with
  | zero => rfl
  | succ n ih => simp [State.sendCells, ih]
@[simp] theorem State.sendCells_tables (s : State) (n : Nat) : (s.sendCells n).tables = s.tables := by
  induction n generalizing s with
  | zero => rfl
  | succ n ih => simp [State.sendCells, ih]
@[simp] theorem State.sendCells_input (s : State) (n : Nat) : (s.sendCells n).input = s.input := by
  induction n generalizing s with
  | zero => rfl
  | succ n ih => simp [State.sendCells, ih]
@[simp] theorem State.sendCells_stream (s : State) (n : Nat) : (s.sendCells n).stream = s.stream := by
  induction n generalizing s with
  | zero => rfl
  | succ n ih => simp [State.sendCells, ih]
@[simp] theorem State.sendCells_line (s : State) (n : Nat) : (s.sendCells n).line = s.line := by
  induction n generalizing s with
  | zero => rfl
  | succ n ih => simp [State.sendCells, ih]
@[simp] theorem State.sendCells_clock (s : State) (n : Nat) : (s.sendCells n).clock = s.clock := by
  induction n generalizing s with
  | zero => rfl
  | succ n ih => simp [State.sendCells, ih]
@[simp] theorem State.sendCells_tone (s : State) (n : Nat) : (s.sendCells n).tone = s.tone := by
  induction n generalizing s with
  | zero => rfl
  | succ n ih => simp [State.sendCells, ih]
@[simp] theorem State.sendCells_start (s : State) (n : Nat) : (s.sendCells n).start = s.start := by
  induction n generalizing s with
  | zero => rfl
  | succ n ih => simp [State.sendCells, ih]
@[simp] theorem State.sendCells_pending (s : State) (n : Nat) : (s.sendCells n).pending = s.pending := by
  induction n generalizing s with
  | zero => rfl
  | succ n ih => simp [State.sendCells, ih]

/-! ## Time -/

@[simp] theorem State.fireDeadline_tables (s : State) (i : Nat) : (s.fireDeadline i).tables = s.tables := by
  unfold State.fireDeadline; dsimp only; split_ifs <;> simp
@[simp] theorem State.fireDeadline_input (s : State) (i : Nat) : (s.fireDeadline i).input = s.input := by
  unfold State.fireDeadline; dsimp only; split_ifs <;> simp
@[simp] theorem State.fireDeadline_stream (s : State) (i : Nat) : (s.fireDeadline i).stream = s.stream := by
  unfold State.fireDeadline; dsimp only; split_ifs <;> simp
@[simp] theorem State.fireDeadline_display (s : State) (i : Nat) : (s.fireDeadline i).display = s.display := by
  unfold State.fireDeadline; dsimp only; split_ifs <;> simp
@[simp] theorem State.fireDeadline_start (s : State) (i : Nat) : (s.fireDeadline i).start = s.start := by
  unfold State.fireDeadline; dsimp only; split_ifs <;> simp
@[simp] theorem State.fireDeadline_pending (s : State) (i : Nat) : (s.fireDeadline i).pending = s.pending := by
  unfold State.fireDeadline; dsimp only; split_ifs <;> simp
@[simp] theorem State.checkDeadline_tables (s : State) (i : Nat) : (s.checkDeadline i).tables = s.tables := by
  unfold State.checkDeadline; split_ifs <;> simp
@[simp] theorem State.checkDeadline_input (s : State) (i : Nat) : (s.checkDeadline i).input = s.input := by
  unfold State.checkDeadline; split_ifs <;> simp
@[simp] theorem State.checkDeadline_stream (s : State) (i : Nat) : (s.checkDeadline i).stream = s.stream := by
  unfold State.checkDeadline; split_ifs <;> simp
@[simp] theorem State.checkDeadline_display (s : State) (i : Nat) : (s.checkDeadline i).display = s.display := by
  unfold State.checkDeadline; split_ifs <;> simp
@[simp] theorem State.checkDeadline_start (s : State) (i : Nat) : (s.checkDeadline i).start = s.start := by
  unfold State.checkDeadline; split_ifs <;> simp
@[simp] theorem State.checkDeadline_pending (s : State) (i : Nat) : (s.checkDeadline i).pending = s.pending := by
  unfold State.checkDeadline; split_ifs <;> simp
/-- A part of the state that the clock's re-arming and the check of one deadline keep, a check of the whole
table keeps (R168). -/
theorem State.checkDeadlines_keeps {α : Type} (part : State → α)
    (hr : ∀ s : State, part { s with clock := s.clock.rearm } = part s)
    (hc : ∀ (s : State) (i : Nat), part (s.checkDeadline i) = part s) (s : State)
    (dayChanged : Bool) : part (s.checkDeadlines dayChanged) = part s := by
  unfold State.checkDeadlines
  have fold : ∀ (entries : List Nat) (u : State),
      part (entries.foldl State.checkDeadline u) = part u := fun entries => by
    induction entries with
    | nil => exact fun _ => rfl
    | cons i rest ih => exact fun u => (ih _).trans (hc u i)
  rw [fold]
  split_ifs
  · exact hr s
  · rfl

@[simp] theorem State.checkDeadlines_tables (s : State) (b : Bool) :
    (s.checkDeadlines b).tables = s.tables :=
  s.checkDeadlines_keeps (·.tables) (fun _ => rfl) State.checkDeadline_tables b
@[simp] theorem State.checkDeadlines_input (s : State) (b : Bool) :
    (s.checkDeadlines b).input = s.input :=
  s.checkDeadlines_keeps (·.input) (fun _ => rfl) State.checkDeadline_input b
@[simp] theorem State.checkDeadlines_stream (s : State) (b : Bool) :
    (s.checkDeadlines b).stream = s.stream :=
  s.checkDeadlines_keeps (·.stream) (fun _ => rfl) State.checkDeadline_stream b
@[simp] theorem State.checkDeadlines_display (s : State) (b : Bool) :
    (s.checkDeadlines b).display = s.display :=
  s.checkDeadlines_keeps (·.display) (fun _ => rfl) State.checkDeadline_display b
@[simp] theorem State.checkDeadlines_start (s : State) (b : Bool) :
    (s.checkDeadlines b).start = s.start :=
  s.checkDeadlines_keeps (·.start) (fun _ => rfl) State.checkDeadline_start b
@[simp] theorem State.checkDeadlines_pending (s : State) (b : Bool) :
    (s.checkDeadlines b).pending = s.pending :=
  s.checkDeadlines_keeps (·.pending) (fun _ => rfl) State.checkDeadline_pending b
@[simp] theorem State.advanceMillisecond_tables (s : State) : (s.advanceMillisecond).tables = s.tables := by
  unfold State.advanceMillisecond; dsimp only; split_ifs <;> simp
@[simp] theorem State.advanceMillisecond_input (s : State) : (s.advanceMillisecond).input = s.input := by
  unfold State.advanceMillisecond; dsimp only; split_ifs <;> simp
@[simp] theorem State.advanceMillisecond_stream (s : State) : (s.advanceMillisecond).stream = s.stream := by
  unfold State.advanceMillisecond; dsimp only; split_ifs <;> simp
@[simp] theorem State.advanceMillisecond_display (s : State) : (s.advanceMillisecond).display = s.display := by
  unfold State.advanceMillisecond; dsimp only; split_ifs <;> simp
@[simp] theorem State.advanceMillisecond_start (s : State) : (s.advanceMillisecond).start = s.start := by
  unfold State.advanceMillisecond; dsimp only; split_ifs <;> simp
@[simp] theorem State.advanceMillisecond_pending (s : State) : (s.advanceMillisecond).pending = s.pending := by
  unfold State.advanceMillisecond; dsimp only; split_ifs <;> simp
@[simp] theorem State.accumulate_tables (s : State) : (s.accumulate).tables = s.tables := by
  unfold State.accumulate; dsimp only; split_ifs <;> simp
@[simp] theorem State.accumulate_input (s : State) : (s.accumulate).input = s.input := by
  unfold State.accumulate; dsimp only; split_ifs <;> simp
@[simp] theorem State.accumulate_stream (s : State) : (s.accumulate).stream = s.stream := by
  unfold State.accumulate; dsimp only; split_ifs <;> simp
@[simp] theorem State.accumulate_display (s : State) : (s.accumulate).display = s.display := by
  unfold State.accumulate; dsimp only; split_ifs <;> simp
@[simp] theorem State.accumulate_start (s : State) : (s.accumulate).start = s.start := by
  unfold State.accumulate; dsimp only; split_ifs <;> simp
@[simp] theorem State.accumulate_pending (s : State) : (s.accumulate).pending = s.pending := by
  unfold State.accumulate; dsimp only; split_ifs <;> simp

end Sys2Proof.Machine
end

