-- ==== Sys2Proof/Tests/Slice0.lean ====
section
/-! SUPPORT. The model's own tests: ill-formed commands refused, byte layouts, values from the spec's worked
cases, and for every statement with hypotheses a state and operands that meet them. -/

namespace Sys2Proof.Tests

open Sys2Proof Sys2Proof.Machine

set_option Elab.async false

/-! ## States for the tests -/

/-- A part whose start has ended, with the entry state OPEN. -/
def ready : State :=
  { State.reset with
    start := { resetLow := false, running := none, cause := .power }
    input := { inputReset with entry := .openEntry } }

/-- The part with some entries in its type-ahead queue. -/
def waiting (l : List QueueEntry) (s : State) : State :=
  { s with input := { s.input with typeAhead := l } }

/-- The part with a block in hand whose directive list has these bytes. -/
def inHand (bytes : List Byte) (s : State) : State :=
  { s with
    stream := { s.stream with phase := .applying 2 none, chainSeq := 7, lastSeq := 7 }
    line := { s.line with buffers := [[7, 0] ++ bytes ++ [0]] }
    input := { s.input with entry := .held .openEntry } }

/-- A record with no options and clear marks. -/
def record (tag start length : Nat) (kind : Kind) (cls : FieldClass) : Field :=
  { tag := tag, start := start, length := length, kind := kind, cls := cls
    opts := fieldOptionsOf 0, normal := 0, edit := 3, error := 6, next := none, sources := none
    modified := false, collision := false, errorMark := none, alert := none
    incomplete := false, saturated := false }

/-- A numeric part of scale 2, unsigned, with limits 0 to 999.99 and a step of 1.00. -/
def amount : NumPart := { scale := 2, signed := false, lower := 0, upper := 99999, step := 100 }

/-- An amount to key, with the normalise option and a next tag. -/
def amountField : Field :=
  { record 1 100 6 .entry (.numeric amount) with opts := fieldOptionsOf 0x40, next := some 2 }

/-- A name to key, mandatory and fill-whole with auto-advance and fold. -/
def nameField : Field := { record 2 200 4 .entry .alpha with opts := fieldOptionsOf 0x17 }

/-- A tally of the amount. -/
def tallyField : Field := { record 3 300 8 .tally (.numeric amount) with sources := some [1] }

/-- A clock. -/
def clockField : Field := record 4 400 8 .clock .none

/-- A form of the four, the cursor in the first cell of the amount, which holds 1.50. -/
def form4 : Form :=
  { cells := [(102, ⟨0x31, 0⟩), (103, ⟨0x2E, 0⟩), (104, ⟨0x35, 0⟩), (105, ⟨0x30, 0⟩)]
    active := [amountField, nameField, tallyField, clockField]
    overlay := none, cursor := 100, insert := false, visit := false, history := [] }

/-- The running part with that form. -/
def desk : State := { ready with form := form4 }

/-- A window over the name, with a field of its own and the name suspended beneath. -/
def form5 : Form :=
  { cells := [(199, ⟨0x2A, 0⟩)]
    active := [amountField, record 9 199 3 .entry .alpha, tallyField, clockField]
    overlay := some
      { window := { top := 2, left := 7, height := 1, width := 8 }
        savedCells := [(200, ⟨0x41, 0⟩)]
        savedCursor := 100
        savedHistory := [1]
        suspended := [{ nameField with modified := true }] }
    cursor := 199, insert := false, visit := false, history := [] }

/-- The running part with the window open. -/
def window : State := { ready with form := form5 }

theorem test_forms_lawful :
    form4.lawful = true ∧ form4.storeLaw = true ∧ form4.cursorLaw = true ∧
    form4.modifiedLaw = true ∧ form5.lawful = true ∧ form5.storeLaw = true ∧
    form5.cursorLaw = true ∧ form5.modifiedLaw = true := by decide +kernel

/-! ## Ill-formed commands (R180) -/

theorem test_illformed_counts :
    (Instr.write (List.replicate 256 0)).wellFormed = false ∧
    (Instr.sources 1 (List.replicate 256 1)).wellFormed = false ∧
    (Instr.put 1 0 (List.replicate 256 0)).wellFormed = false ∧
    (Instr.routeMatch 0 (List.replicate 256 0) 1 1).wellFormed = false ∧
    (Instr.tone (List.replicate 256 (1, 1))).wellFormed = false := by decide +kernel

theorem test_illformed_field_parts :
    (Instr.field ⟨1, 6, 1, 2, 0, 0, 0, 0, 0, .plain⟩).wellFormed = false ∧
    (Instr.field ⟨1, 6, 1, 1, 0, 0, 0, 0, 0, .code 0⟩).wellFormed = false ∧
    (Instr.field ⟨1, 6, 1, 2, 0, 0, 0, 0, 0, .numeric 0 0 1 none 1⟩).wellFormed = false := by decide

theorem test_illformed_others :
    (Instr.table 1 0 0 2 [0, 0]).wellFormed = false ∧
    (Instr.deadline 0 1 none 0 0 0).wellFormed = false ∧
    (Instr.directiveUnknown 0x11).wellFormed = false ∧ (Instr.wandByte 0x0D).wellFormed = false ∧
    (Instr.submit 0).wellFormed = false ∧ (Instr.submit 25).wellFormed = false := by decide

/-! ## Byte layouts (R41, R180) -/

theorem test_layout_at : parseDirective 0x11 [5, 10, 0x12] = some (.setAt 5 10, [0x12]) := by decide

theorem test_layout_fill : parseDirective 0x13 [0x2D, 0x0A, 0x80] = some (.fill 0x2D 2688, []) := by
  decide

theorem test_layout_put :
    parseDirective 0x24 [20, 1, 2, 0x41, 0x42] = some (.put 20 1 [0x41, 0x42], []) := by decide

theorem test_layout_field_numeric :
    parseDirective 0x21 [20, 7, 1, 2, 0x44, 3, 4, 6, 21, 2, 1, 1, 0xFF, 0xFF, 0x3C, 0xB0, 0, 0, 0xC3,
        0x50, 0, 0, 0, 25] =
      some (.field ⟨20, 7, 1, 2, 0x44, 3, 4, 6, 21,
        .numeric 2 1 1 (some (BitVec.ofInt 32 (-50000), 50000)) 25⟩, []) := by decide

theorem test_layout_deadline :
    parseDirective 0x53 [1, 3, 0, 60, 0, 0xE1, 0x00, 44, 5] =
      some (.deadline 1 3 (some 60) 57600 44 5, []) ∧
    parseDirective 0x53 [1, 2, 0, 0xE1, 0x00, 44, 5] = some (.deadline 1 2 none 57600 44 5, []) := by
  decide

theorem test_layout_short : parseDirective 0x24 [20, 1, 3, 0x41, 0x42] = none := by decide

/-! ## Values from the spec -/

/-- R174: over the ASCII bytes "123456789" the check gives 0x29B1. -/
theorem test_crc :
    crc16 [0x31, 0x32, 0x33, 0x34, 0x35, 0x36, 0x37, 0x38, 0x39] = 0x29B1 := by decide +kernel

/-- The number part of the worked parse cases of section 4.2. -/
def parseCase : NumPart := { scale := 2, signed := true, lower := -50000, upper := 50000, step := 1 }

/-- Worked parse cases of section 4.2: "12.5", "-3.456", "1.005", "-0.004". -/
theorem test_parse_values :
    parseNumber parseCase 7 [0, 0x31, 0x32, 0x2E, 0x35, 0x20, 0] = .value 1250 ∧
    parseNumber parseCase 7 [0x2D, 0x33, 0x2E, 0x34, 0x35, 0x36, 0] = .value (-346) ∧
    parseNumber parseCase 7 [0x31, 0x2E, 0x30, 0x30, 0x35, 0, 0] = .value 101 ∧
    parseNumber parseCase 7 [0x2D, 0x30, 0x2E, 0x30, 0x30, 0x34, 0] = .value 0 := by decide +kernel

/-- Worked parse cases of section 4.2: "999.99", "12 5", ".", and blanks only. -/
theorem test_parse_failures :
    parseNumber parseCase 7 [0x39, 0x39, 0x39, 0x2E, 0x39, 0x39, 0] = .range ∧
    parseNumber parseCase 7 [0x31, 0x32, 0x20, 0x35, 0, 0, 0] = .format ∧
    parseNumber parseCase 7 [0x2E, 0, 0, 0, 0, 0, 0] = .format ∧
    parseNumber parseCase 7 [0, 0x20, 0, 0, 0, 0, 0] = .empty := by decide +kernel

/-- The canonical forms of section 4.2 of 1,250 and −346 units: "  12.50" and "  -3.46". -/
theorem test_canonical :
    canonical parseCase 7 1250 = [0x20, 0x20, 0x31, 0x32, 0x2E, 0x35, 0x30] ∧
    canonical parseCase 7 (-346) = [0x20, 0x20, 0x2D, 0x33, 0x2E, 0x34, 0x36] := by decide +kernel

/-- R44: the chain byte continues a chain when its halves are complements. -/
theorem test_chain_bytes :
    chainContinues 0x5A = true ∧ chainContinues 0xF0 = true ∧ chainContinues 0x00 = false ∧
    chainContinues 0xFF = false := by decide

/-- The worked order of tests of section 4.4: a fill-whole CODE field of length 8 under MOD10W31 holding
"735201", "73520191" and "7352 191". -/
theorem test_exit_code :
    let f := { record 7 0 8 .entry (.code .mod10w31) with opts := fieldOptionsOf 0x02 }
    exitTest f [0x37, 0x33, 0x35, 0x32, 0x30, 0x31, 0, 0] = some .incomplete ∧
    exitTest f [0x37, 0x33, 0x35, 0x32, 0x30, 0x31, 0x39, 0x31] = none ∧
    exitTest f [0x37, 0x33, 0x35, 0x32, 0x20, 0x31, 0x39, 0x31] = some .format := by decide +kernel

/-- R165: HH:MM and HH:MM:SS. -/
theorem test_clock_text :
    clockText 5 57700 = [0x31, 0x36, 0x3A, 0x30, 0x31] ∧
    clockText 8 57700 = [0x31, 0x36, 0x3A, 0x30, 0x31, 0x3A, 0x34, 0x30] := by decide +kernel

/-- R2: the position after 2,687 is 0 and the rows follow each other. -/
theorem test_positions :
    nextPosition 2687 = 0 ∧ nextPosition 383 = 384 ∧ previousPosition 0 = 2687 := by decide

/-- R11: with column 95 sent the row is complete, so that a withdrawal of DRDY after it abandons nothing. -/
theorem test_row_complete :
    ({ State.reset with display := { displayReset with column := some 95 } } : State).sendCell.display.row
      = 1 ∧
    ({ State.reset with display := { displayReset with column := some 94 } } : State).sendCell.display.row
      = 0 := by decide +kernel

/-- R170: the ranks and the steps of the patterns. -/
theorem test_patterns :
    Pattern.steps .overflow = [⟨.low, 15360⟩, ⟨.silence, 15360⟩, ⟨.low, 15360⟩] ∧
    (Pattern.steps .deadline).length = 6 ∧ Pattern.steps .good = [⟨.high, 10240⟩] := by decide

/-- No word spells a command, since the table gives no bits. -/
theorem test_no_words : decodeTableWord 0 0 = none := rfl

/-! ## States that meet the hypotheses of the statements -/

/-- A record whose modified mark is set. -/
def Field.marked (f : Field) : Field := { f with modified := true }

/-- The desk with the amount modified. -/
def keyed : State := { ready with form := { form4 with
  active := [Field.marked amountField, nameField, tallyField, clockField] } }

/-- The receiver in a state. -/
def receiving (r : Receiver) : State := { ready with line := { ready.line with receiver := r } }

/-- The part with so many notices queued and the transmitter sending a frame or idle. -/
def queueing (n : Nat) (sending : Option Sending) : State :=
  { ready with line := { ready.line with
      notices := List.replicate n .frame, sending := sending } }

/-- The part with a stream state. -/
def streaming (p : Phase) (s : State) : State := { s with stream := { s.stream with phase := p } }

theorem witness_StepRunsFront :
    ({ ready with pending := [.baseTick, .next] } : State).pending = .baseTick :: [.next] := rfl

/-- The part with a row of the display in progress. -/
def showing (row column : Nat) : State :=
  { ready with display := { displayReset with row := row, column := some column } }

theorem witness_EmptyQueueSendsNextCell :
    (showing 27 95).pending = [] ∧ ready.display.column = none ∧
    (showing 0 0).display.column = some 0 ∧ (showing 0 94).display.column = some 94 ∧
    (showing 27 95).display.column = some 95 ∧ (showing 27 95).display.row < 28 := by decide +kernel

theorem witness_StartsAndPinReset :
    (∃ s : State, s.start.resetLow = true) ∧ State.reset.start.running = some .power ∧
    ∃ s : State, s.start.running = some .pin :=
  ⟨⟨{ ready with start := { resetLow := true, running := none, cause := .power } }, rfl⟩, rfl,
    { ready with start := { resetLow := false, running := some .pin, cause := .power } }, rfl⟩

/-- The part with so much left of the 250 ms at space. -/
def spacing (left : Nat) : State := { ready with line := { ready.line with spaceLeft := left } }

theorem witness_LineResetEffect :
    (spacing 0).start.resetLow = false ∧ (spacing 0).line.atSpace = false ∧
    (spacing 0).line.spaceLeft = 0 ∧ 0 < (spacing 1).line.spaceLeft ∧
    ∃ s : State, s.start.resetLow = true ∧ s.line.atSpace = true :=
  ⟨rfl, rfl, rfl, Nat.one_pos,
    { ready with
      line := { ready.line with atSpace := true }
      start := { ready.start with resetLow := true } }, rfl, rfl⟩

/-- The 250 ms at space are 512 base ticks, and not one fewer (R179). -/
theorem test_line_reset_after_250_ms :
    (Line.tick^[511] (lineUnitReset 0)).spaceLeft ≠ 0 ∧
    (Line.tick^[512] (lineUnitReset 0)).spaceLeft = 0 := by decide +kernel

theorem witness_ReceiverTakesGoodCharacters :
    (receiving .hunt).start.resetLow = false ∧ (receiving .hunt).line.atSpace = false ∧
    (receiving .hunt).line.receiver = .hunt ∧
    (receiving (.length none)).line.receiver = .length none ∧
    (receiving (.length (some 0x30))).line.receiver = .length (some 0x30) ∧
    (receiving (.payload 3 [1, 2])).line.receiver = .payload 3 [1, 2] ∧
    (receiving (.crc [1, 0, 0] none)).line.receiver = .crc [1, 0, 0] none ∧
    (receiving (.crc [1, 0, 0] (some 9))).line.receiver = .crc [1, 0, 0] (some 9) := by
  decide +kernel

theorem witness_ReceiverFaults :
    (receiving (.length none)).line.receiver ≠ .hunt ∧ (receiving (.length none)).line.gapLeft = 0 ∧
    (receiving (.length none)).start.resetLow = false ∧
    (receiving (.length none)).line.atSpace = false ∧
    ∃ s : State, s.start.resetLow = true ∨ s.line.atSpace = true :=
  ⟨by decide, rfl, rfl, rfl, { ready with line := { ready.line with atSpace := true } }, .inr rfl⟩

theorem witness_FrameRoundTrip :
    (ready.start.resetLow = false ∧ ready.line.atSpace = false ∧ ready.line.receiver = .hunt ∧
      ready.line.buffers.length < 2 ∧ 3 ≤ ([1, 0, 0] : List Byte).length) ∧
    (List.replicate 12288 (0 : Byte)).length ≤ 12288 :=
  ⟨by decide +kernel, (List.length_replicate).le⟩

/-- The part sending a notice's frame, with a reply built behind it. -/
def sendingNotice : State :=
  { ready with line := { ready.line with sending := some ⟨false, []⟩, reply := some [0x81] } }

theorem witness_NoticesAndTransmission :
    (queueing 0 none).started = true ∧ (queueing 0 none).line.sending = none ∧
    (queueing 4 none).started = true ∧ (queueing 4 none).line.notices.length = 4 ∧
    (queueing 4 (some ⟨true, []⟩)).line.sending ≠ none ∧ State.reset.started = false ∧
    (queueing 1 (some ⟨true, []⟩)).line.notices = .frame :: [] ∧
    (queueing 0 (some ⟨true, []⟩)).line.notices = [] ∧ sendingNotice.started = true ∧
    sendingNotice.line.notices = [] ∧ sendingNotice.line.reply = some [0x81] := by decide +kernel

theorem witness_BlockTaken :
    (∃ s : State, s.started = true ∧ s.stream.phase = .idle ∧ s.line.buffers = [9, 1, 0] :: [] ∧
      s.input.entry = ReturnState.fault.entry) ∧
    ∃ s : State, s.stream.phase = .chained 5 ∧ s.line.buffers = [9, 1, 0] :: [] :=
  ⟨⟨{ ready with
      line := { ready.line with buffers := [[9, 1, 0]] }
      input := { ready.input with entry := .fault } }, by decide⟩,
    { streaming (.chained 5) ready with line := { ready.line with buffers := [[9, 1, 0]] } },
    by decide⟩

/-- A part in HELD with a last block whose chain byte is this one. -/
def ending (flags chain : Byte) : State :=
  { inHand [] ready with line := { ready.line with buffers := [[7, flags, chain]] } }

theorem witness_ChainByteExamined :
    (ending 1 0x5A).line.buffers = [7, 1, 0x5A] :: [] ∧
    (([7, 1, 0x5A] : List Byte).getLastD 0).toNat / 16 +
      (([7, 1, 0x5A] : List Byte).getLastD 0).toNat % 16 = 15 ∧
    (([7, 1, 0xFF] : List Byte).getLastD 0).toNat / 16 +
      (([7, 1, 0xFF] : List Byte).getLastD 0).toNat % 16 ≠ 15 ∧
    (ending 1 0xFF).input.entry = .held .openEntry := by decide

theorem witness_ChainAbandoned :
    (inHand [0x99] ready).input.entry = .held .openEntry ∧
    (inHand [0x99] ready).fetch = .unknown 0x99 ∧
    (inHand [0x11, 5] ready).fetch = .short 0x11 ∧ directiveCode (.setAt 0 0) = some 0x11 ∧
    (streaming (.chained 0) (inHand [] ready)).stream.phase = .chained 0 ∧
    (streaming (.chained 0) (inHand [] ready)).input.entry = .held .openEntry := by decide +kernel

theorem witness_DirectiveLayoutRoundTrip :
    (Instr.setAt 27 95).wellFormed = true ∧ directiveCode (.setAt 27 95) = some 0x11 ∧
    (inHand [0x11, 27, 95, 0x16] ready).stream.phase = .applying 2 none ∧
    directiveList (inHand [0x11, 27, 95, 0x16] ready).block 2 =
      directiveBytes (.setAt 27 95) ++ [0x16] := by decide +kernel

/-- The part with a READ in hand and the reply buffer BUSY. -/
def readWaiting : State :=
  let s := inHand [0x62, 2] ready
  { s with line := { s.line with reply := some [] } }

theorem witness_ReadBuildsOrPauses :
    (inHand [0x62, 1] ready).fetch = .directive (.read 1) 0 ∧
    (inHand [0x62, 4] ready).fetch = .directive (.read 4) 0 ∧
    (inHand [0x62, 1] ready).line.reply = none ∧
    (inHand [0x62, 0] ready).fetch = .directive (.read 0) 0 ∧
    (inHand [0x62, 5] ready).fetch = .directive (.read 5) 0 ∧
    readWaiting.fetch = .directive (.read 2) 0 ∧ readWaiting.line.reply ≠ none ∧
    (streaming (.applying 2 (some .screen)) ready).stream.phase = .applying 2 (some .screen) ∧
    (streaming (.applying 2 (some .screen)) ready).line.reply = none := by decide +kernel

theorem witness_ReadReplies :
    (queueing 0 (some ⟨false, []⟩)).line.sending ≠ none ∧ State.reset.started = false ∧
    (queueing 1 none).started = true ∧ (queueing 1 none).line.sending = none ∧
    (queueing 1 none).line.notices = .frame :: [] ∧ (queueing 0 none).line.notices = [] ∧
    ({ (queueing 0 none).line with reply := some [0x84] } : Line).reply = some [0x84] ∧
    desk.form.overlay = none ∧ (window.form.overlay.map (·.window)) = some ⟨2, 7, 1, 8⟩ ∧
    ready.clock.deadlines.length = 4 := by decide +kernel

theorem witness_AtSetsWritePosition :
    (inHand [0x11, 27, 95] ready).fetch = .directive (.setAt 27 95) 0 ∧
    (inHand [0x11, 28, 0] ready).fetch = .directive (.setAt 28 0) 0 ∧
    (inHand [0x11, 0, 96] ready).fetch = .directive (.setAt 0 96) 0 := by decide +kernel

theorem witness_StyleClearFormOptionsRate :
    (inHand [0x14, 15] ready).fetch = .directive (.style 15) 0 ∧
    (inHand [0x14, 16] ready).fetch = .directive (.style 16) 0 ∧
    (inHand [0x16] ready).fetch = .directive .clearForm 0 ∧
    (inHand [0x61, 5] ready).fetch = .directive (.options 5) 0 ∧
    (inHand [0x52, 0x7D, 0x00] ready).fetch = .directive (.rate 32000) 0 := by decide +kernel

theorem witness_HostCellRun :
    keyed.form.storeLaw = true ∧ keyed.stream.writePos < 2688 ∧
    (inHand [0x12, 2, 0x41, 0x42] keyed).fetch = .directive (.write [0x41, 0x42]) 0 ∧
    (inHand [0x13, 0x2D, 0x0A, 0x80] keyed).fetch = .directive (.fill 0x2D 2688) 0 ∧
    (inHand [0x15, 0x00, 0x01] keyed).fetch = .directive (.erase 1) 0 ∧
    keyed.form.heldOff 100 = true ∧ keyed.form.heldOff 105 = true ∧
    keyed.form.heldOff 106 = false ∧
    (keyed.form.writeOwner 100).map (·.modified) = some true := by decide +kernel

theorem witness_HostPlacesCursor :
    (inHand [0x26, 27, 95] desk).fetch = .directive (.cursor 27 95) 0 ∧
    (inHand [0x26, 27, 95] desk).form.overlay = none ∧
    (inHand [0x26, 2, 7] window).form.inWindow 199 = true ∧
    (inHand [0x26, 2, 15] window).form.inWindow 207 = false ∧
    (inHand [0x26, 28, 0] desk).fetch = .directive (.cursor 28 0) 0 ∧
    (inHand [0x27, 0] desk).fetch = .directive (.cursorField 0) 0 ∧
    (inHand [0x27, 251] desk).fetch = .directive (.cursorField 251) 0 ∧
    (inHand [0x27, 250] desk).fetch = .directive (.cursorField 250) 0 ∧
    desk.form.activeTag 250 = none ∧ desk.form.activeTag 1 = some amountField := by decide +kernel

theorem witness_TableLoads :
    ready.tables.sizeLaw = true ∧
    (pairUp [0x12, 24, 0x00, 0]).map (fun p => actionOf p.1 p.2) =
      [Action.submit 24, Action.none].map some ∧
    (inHand [0x41, 1, 2, 127, 2, 0x12, 24, 0x00, 0] ready).fetch =
      .directive (.table 1 2 127 2 [0x12, 24, 0x00, 0]) 0 ∧
    (inHand [0x41, 2, 0, 255, 2, 1, 0, 2, 0] ready).fetch =
      .directive (.table 2 0 255 2 [1, 0, 2, 0]) 0 ∧
    ([0x1D, 0x02] : List Byte).map styleOf =
      [(⟨.bright, true, true, true⟩ : Style), ⟨.dim, false, false, false⟩].map some ∧
    (inHand [0x41, 3, 0, 15, 2, 0x1D, 0x02] ready).fetch =
      .directive (.table 3 0 15 2 [0x1D, 0x02]) 0 := by decide +kernel

/-- A FIELD of an ALPHA ENTRY record over the amount, a TALLY and a CLOCK elsewhere. -/
def overAmount : FieldArgs := ⟨7, 3, 1, 1, 0, 0, 0, 0, 0, .plain⟩
def newTally : FieldArgs := ⟨8, 6, 4, 2, 0, 0, 0, 0, 0, .numeric 2 0 0 none 1⟩
def newClock : FieldArgs := ⟨250, 5, 5, 0, 0, 15, 0, 0, 0, .plain⟩

/-- The desk with the write position at a cell and a FIELD in hand. -/
def defining (a : FieldArgs) (p : Nat) (s : State) : State :=
  let t := inHand (directiveBytes (.field a)) s
  { t with stream := { t.stream with writePos := p } }

theorem witness_FieldDefined :
    (defining overAmount 98 desk).tableLaw = true ∧
    (defining overAmount 98 desk).form.storeLaw = true ∧
    (defining overAmount 98 desk).fetch = .directive (.field overAmount) 0 ∧
    (fieldRecord overAmount 98).isOk = true ∧ (fieldRecord newTally 500).isOk = true ∧
    (fieldRecord newClock 2683).isOk = true ∧
    desk.form.reachable (record 7 98 3 .entry .alpha) = true ∧
    desk.form.suspendedTag 7 = none ∧
    (∀ g ∈ desk.form.active, g.modified = false) ∧
    desk.form.active.length - (desk.form.overlapped (record 7 98 3 .entry .alpha)).length +
      desk.form.suspended.length < 120 := by decide +kernel

/-- FIELD arguments of a NUMERIC ENTRY field of length 6 with some numeric bytes. -/
def numericArgs (scale signed flag : Byte) (limits : Option (Quad × Quad)) (step : Quad) :
    FieldArgs := ⟨1, 6, 1, 2, 0, 0, 0, 0, 0, .numeric scale signed flag limits step⟩

theorem witness_FieldChecks :
    (fieldRecord { overAmount with tag := 251 } 0).isOk = false ∧
    (fieldRecord { overAmount with length := 97 } 0).isOk = false ∧
    (fieldRecord overAmount 94).isOk = false ∧ (fieldRecord overAmount 93).isOk = true ∧
    (fieldRecord { overAmount with kind := 6 } 0).isOk = false ∧
    (fieldRecord { overAmount with part := .code 3, cls := 3 } 0).isOk = false ∧
    (fieldRecord { overAmount with part := .code 2, cls := 3, normal := 15 } 0).isOk = true ∧
    (fieldRecord { overAmount with part := .code 2, cls := 3, normal := 16 } 0).isOk = false ∧
    (fieldRecord { overAmount with next := 250 } 0).isOk = true ∧
    (fieldRecord { overAmount with next := 251 } 0).isOk = false := by decide +kernel

theorem witness_FieldChecks_numeric :
    (fieldRecord (numericArgs 3 0 1 (some (0, 99999)) 99999) 0).isOk = true ∧
    (fieldRecord (numericArgs 3 0 1 (some (0, 100000)) 1) 0).isOk = false ∧
    (fieldRecord (numericArgs 3 2 1 (some (0, 9)) 1) 0).isOk = false ∧
    (fieldRecord (numericArgs 3 0 0 none 1) 0).isOk = false ∧
    (fieldRecord (numericArgs 0 0 1 (some (0, 9)) 0) 0).isOk = false ∧
    window.form.reachable (record 7 206 2 .entry .alpha) = false ∧
    (window.form.suspendedTag 2).isSome = true ∧
    (defining overAmount 98 keyed).fetch = .directive (.field overAmount) 0 ∧
    (∃ g ∈ keyed.form.active, g.sharesCell (record 7 98 3 .entry .alpha) = true ∧
      g.modified = true) ∧
    (List.replicate 120 amountField).length = 120 := by decide +kernel

theorem witness_SourcesGiven :
    (inHand [0x22, 3, 1, 1] desk).fetch = .directive (.sources 3 [1]) 0 ∧
    desk.form.record 3 = some (tallyField, false) ∧
    (inHand [0x22, 250, 1, 1] desk).fetch = .directive (.sources 250 [1]) 0 ∧
    desk.form.record 250 = none ∧ desk.form.record 1 = some (amountField, false) ∧
    (inHand [0x22, 3, 1, 251] desk).fetch = .directive (.sources 3 [251]) 0 ∧
    (inHand [0x22, 3, 0] desk).fetch = .directive (.sources 3 []) 0 ∧
    (inHand [0x22, 0, 1, 1] desk).fetch = .directive (.sources 0 [1]) 0 := by decide +kernel

theorem witness_TallyRecomputed :
    form4.lawful = true ∧ form4.storeLaw = true ∧ form4.record 3 = some (tallyField, false) ∧
    tallyField.kind = .tally ∧ tallyField.cls = .numeric amount ∧ tallyField.sources = some [1] ∧
    form4.readSource 1 = .counted 1500 ∧ form4.readSource 2 = .fault ∧
    form4.readSource 250 = .fault ∧ (record 3 300 8 .tally (.numeric amount)).sources = none ∧
    (0 : Nat) < 10 ∧ (1 ∈ [1, 7]) ∧ form4.record 2 = some (nameField, false) ∧
    nameField.kind ≠ .tally := by decide +kernel

theorem witness_DropFrees :
    (inHand [0x23, 1] desk).fetch = .directive (.drop 1) 0 ∧ desk.form.record 1 ≠ none ∧
    (inHand [0x23, 2] window).fetch = .directive (.drop 2) 0 ∧ window.form.record 2 ≠ none ∧
    (inHand [0x23, 250] desk).fetch = .directive (.drop 250) 0 ∧ desk.form.record 250 = none ∧
    (inHand [0x23, 251] desk).fetch = .directive (.drop 251) 0 := by decide +kernel

theorem witness_UnmarkClears :
    (inHand [0x25, 0] keyed).fetch = .directive (.unmark 0) 0 ∧
    (inHand [0x25, 1] keyed).fetch = .directive (.unmark 1) 0 ∧ keyed.form.record 1 ≠ none ∧
    (inHand [0x25, 250] keyed).fetch = .directive (.unmark 250) 0 ∧
    keyed.form.record 250 = none ∧
    (inHand [0x25, 251] keyed).fetch = .directive (.unmark 251) 0 := by decide +kernel

theorem witness_PutReplaces :
    desk.form.lawful = true ∧ desk.form.storeLaw = true ∧
    (inHand [0x24, 1, 0, 2, 0x31, 0x32] desk).fetch = .directive (.put 1 0 [0x31, 0x32]) 0 ∧
    desk.form.record 1 = some (amountField, false) ∧ amountField.kind = .entry ∧
    amountField.modified = false ∧
    (inHand [0x24, 2, 1, 1, 0x41] window).fetch = .directive (.put 2 1 [0x41]) 0 ∧
    window.form.record 2 = some ({ nameField with modified := true }, true) := by decide +kernel

theorem witness_PutHeldOffOrRefused :
    (inHand [0x24, 1, 0, 1, 0x31] keyed).fetch = .directive (.put 1 0 [0x31]) 0 ∧
    keyed.form.record 1 = some (Field.marked amountField, false) ∧
    (inHand [0x24, 4, 0, 1, 0x31] keyed).fetch = .directive (.put 4 0 [0x31]) 0 ∧
    keyed.form.record 4 = some (clockField, false) ∧
    (inHand [0x24, 251, 0, 0] keyed).fetch = .directive (.put 251 0 []) 0 ∧
    (inHand [0x24, 250, 0, 0] keyed).fetch = .directive (.put 250 0 []) 0 ∧
    keyed.form.record 250 = none := by decide +kernel

theorem witness_OverlayOpens :
    desk.form.lawful = true ∧ desk.form.storeLaw = true ∧ desk.form.overlay = none ∧
    (inHand [0x31, 14, 36, 14, 60, 15] desk).fetch = .directive (.overlay 14 36 14 60 15) 0 ∧
    (inHand [0x31, 27, 95, 1, 1, 0] desk).fetch = .directive (.overlay 27 95 1 1 0) 0 := by
  decide +kernel

theorem witness_CountsTablesWindowsRefused :
    (inHand [0x12, 0] desk).fetch = .directive (.write []) 0 ∧
    (inHand [0x13, 0x41, 0x0A, 0x81] desk).fetch = .directive (.fill 0x41 2689) 0 ∧
    (inHand [0x15, 0, 0] desk).fetch = .directive (.erase 0) 0 ∧
    (inHand [0x41, 4, 0, 0, 1] desk).fetch = .directive (.table 4 0 0 1 []) 0 ∧
    (inHand [0x41, 1, 0, 128, 1, 0, 0] desk).fetch = .directive (.table 1 0 128 1 [0, 0]) 0 ∧
    (inHand [0x41, 1, 0, 0, 1, 0x15, 0] desk).fetch = .directive (.table 1 0 0 1 [0x15, 0]) 0 ∧
    (inHand [0x41, 3, 0, 0, 1, 0x07] desk).fetch = .directive (.table 3 0 0 1 [0x07]) 0 ∧
    (inHand [0x31, 0, 0, 1, 1, 0] window).fetch = .directive (.overlay 0 0 1 1 0) 0 ∧
    window.form.overlay ≠ none ∧
    (inHand [0x31, 14, 0, 15, 1, 0] desk).fetch = .directive (.overlay 14 0 15 1 0) 0 ∧
    (inHand [0x31, 0, 0, 1, 1, 16] desk).fetch = .directive (.overlay 0 0 1 1 16) 0 := by
  decide +kernel

/-- The window with its own field modified. -/
def windowKeyed : State := { ready with form := { form5 with
  active := [amountField, Field.marked (record 9 199 3 .entry .alpha), tallyField, clockField] } }

theorem witness_RestoreCloses :
    (inHand [0x32, 0] desk).fetch = .directive (.restore 0) 0 ∧ desk.form.overlay = none ∧
    (inHand [0x32, 0] window).fetch = .directive (.restore 0) 0 ∧
    window.form.overlay.isSome = true ∧ window.form.lawful = true ∧
    window.form.storeLaw = true ∧
    (∀ f ∈ window.form.active, f.modified = false) ∧
    (inHand [0x32, 1] windowKeyed).fetch = .directive (.restore 1) 0 ∧
    (inHand [0x32, 0] windowKeyed).fetch = .directive (.restore 0) 0 ∧
    ∃ f ∈ windowKeyed.form.active, (⟨2, 7, 1, 8⟩ : Window).holds f = true ∧ f.modified = true := by
  decide +kernel

theorem witness_RoutingLoads :
    (inHand [0x42, 15, 6, 1, 2, 3, 4, 5, 6, 48, 48] ready).fetch =
      .directive (.routeMatch 15 [1, 2, 3, 4, 5, 6] 48 48) 0 ∧
    (inHand [0x42, 16, 0, 1, 48] ready).fetch = .directive (.routeMatch 16 [] 1 48) 0 ∧
    (inHand [0x42, 0, 0, 1, 49] ready).fetch = .directive (.routeMatch 0 [] 1 49) 0 ∧
    (inHand [0x43, 15, 250, 0, 1, 3, 24] ready).fetch =
      .directive (.routeAction 15 250 0 1 3 24) 0 ∧
    (inHand [0x43, 16, 250, 0, 1, 3, 24] ready).fetch =
      .directive (.routeAction 16 250 0 1 3 24) 0 ∧
    (inHand [0x43, 0, 251, 0, 0, 0, 0] ready).fetch =
      .directive (.routeAction 0 251 0 0 0 0) 0 ∧
    (inHand [0x43, 0, 0, 1, 0, 0, 0] ready).fetch = .directive (.routeAction 0 0 1 0 0 0) 0 ∧
    ((ready.tables.route 0).staged.getD (ready.tables.route 0).first).lead.length < 1 := by
  decide +kernel

theorem witness_ClockSetsDeskTime :
    (inHand [0x51, 0, 60, 0x01, 0x51, 0x7F, 0x03, 0xE7] desk).fetch =
      .directive (.clock 60 86399 999) 0 ∧
    (inHand [0x51, 0, 60, 0x01, 0x51, 0x80, 0, 0] desk).fetch = .directive (.clock 60 86400 0) 0 ∧
    (inHand [0x51, 0, 60, 0, 0, 0, 0x03, 0xE8] desk).fetch = .directive (.clock 60 0 1000) 0 ∧
    desk.form.lawful = true ∧ desk.rangeLaw = true ∧ clockField.kind = .clock ∧
    clockField ∈ desk.form.active := by decide +kernel

theorem witness_DeadlineLoads :
    (inHand [0x53, 3, 2, 0, 0, 0, 250, 15] desk).fetch =
      .directive (.deadline 3 2 none 0 250 15) 0 ∧
    (inHand [0x53, 0, 1, 0xFF, 0xFF, 0x01, 0x51, 0x7F, 0, 0] desk).fetch =
      .directive (.deadline 0 1 (some 65535) 86399 0 0) 0 ∧
    (inHand [0x53, 4, 0, 0, 0, 0, 0, 0] desk).fetch = .directive (.deadline 4 0 none 0 0 0) 0 ∧
    (inHand [0x53, 0, 0, 0, 0, 0, 251, 0] desk).fetch = .directive (.deadline 0 0 none 0 251 0) 0 ∧
    (inHand [0x53, 0, 0, 0, 0, 0, 0, 16] desk).fetch = .directive (.deadline 0 0 none 0 0 16) 0 ∧
    desk.clock.deadlines.length = 4 ∧
    (inHand [0x54, 3] desk).fetch = .directive (.deadlineOff 3) 0 ∧
    (inHand [0x54, 4] desk).fetch = .directive (.deadlineOff 4) 0 := by decide +kernel

/-- The desk one tick before midnight and before a flip of the blink phase. -/
def midnight : State :=
  { desk with
    clock := { desk.clock with
      second := 86399, millisecond := 999, accumulator := 65535, addend := 1 }
    display := { desk.display with blinkCount := 1023 } }

theorem witness_BaseTickEffect :
    midnight.start.resetLow = false ∧ midnight.rangeLaw = true ∧
    65536 ≤ midnight.clock.accumulator + midnight.clock.addend ∧
    midnight.display.blinkCount = 1023 ∧ desk.rangeLaw = true ∧
    desk.clock.accumulator + desk.clock.addend < 65536 := by decide +kernel

theorem witness_ClockFieldsFollowTick :
    (midnight.tableLaw = true ∧ midnight.rangeLaw = true ∧ clockField ∈ midnight.form.active ∧
      midnight.clock.second ≠ midnight.tick.clock.second ∧
      (midnight.alive && midnight.carries && midnight.flips) = true) ∧
    ∀ c ∈ [Instr.baseTick, .millisecondAdvance, .blinkFlip], exec c midnight = .next midnight.tick :=
  ⟨by decide +kernel, by simp [exec, execBaseTick, execMillisecondAdvance, execBlinkFlip,
    show midnight.alive = true by decide +kernel, show midnight.carries = true by decide +kernel,
    show midnight.flips = true by decide +kernel]⟩

/-- The part in the last step of a pattern, with another pending. -/
def toneEnding : State :=
  { ready with tone :=
    { playing := some { pattern := .good, steps := [⟨.high, 1⟩], left := 0 }
      pending := some .refuse } }

theorem witness_ToneLine :
    Pattern.steps .good = ⟨.high, 10240⟩ :: [] ∧ toneReset.playing = none ∧
    (Pattern.rank .good < Pattern.rank .refuse) ∧ Pattern.steps .refuse ≠ [] ∧
    (inHand [0x55, 1, 2, 255] ready).fetch = .directive (.tone [(2, 255)]) 0 ∧
    (inHand [0x55, 0] ready).fetch = .directive (.tone []) 0 ∧
    (inHand [0x55, 1, 3, 1] ready).fetch = .directive (.tone [(3, 1)]) 0 ∧
    (toneEnding.tone.playing.map fun p => (p.left, p.steps)) = some (0, [⟨.high, 1⟩]) ∧
    toneEnding.tone.pending = some .refuse := by decide +kernel

theorem witness_KeyBytes :
    ready.start.resetLow = false ∧ ready.tables.keys.getD (0 + 0x20) .none = .char 0x20 ∧
    ready.tables.keys.getD (256 + 0x58) .none = .submit 24 ∧
    ready.tables.keys.getD (0 + 0x13) .none = .reset ∧
    ready.tables.keys.getD (0 + 0x7F) .none = .none ∧ ready.input.entry = .openEntry ∧
    State.reset.input.entry = .await ∧ (inHand [] ready).input.entry = .held .openEntry := by
  decide +kernel

theorem witness_WandAndScan :
    ready.start.resetLow = false ∧
    (∃ s : State, s.start.resetLow = false ∧ s.input.scan.bad = false ∧
      s.input.scan.overlong = false ∧ s.input.scan.chars ≠ [] ∧ s.input.entry = .openEntry ∧
      s.input.typeAhead.length < 32 ∧ s.input.scans.length < 4) ∧
    ready.input.scan.chars = [] :=
  ⟨rfl, ⟨{ ready with input := { ready.input with scan := { emptyScan with chars := [0x41] } } },
    by decide +kernel⟩, rfl⟩

theorem witness_CurrentFieldChanges :
    form4.current.map (·.tag) = (form4.fieldAt 105).map (·.tag) ∧
    form4.current.map (·.tag) ≠ (form4.fieldAt 106).map (·.tag) ∧
    form4.current.map (·.tag) ≠ (form4.fieldAt 200).map (·.tag) ∧
    ({ form4 with visit := true } : Form).lawful = true ∧
    ({ form4 with visit := true } : Form).current = some amountField ∧
    amountField.kind = .entry ∧ form4.visit = false := by decide +kernel

theorem witness_CellMoves :
    (waiting [.action .left] desk).input.typeAhead = .action .left :: [] ∧
    desk.input.entry = .openEntry ∧ desk.form.overlay = none ∧ desk.form.cursor < 2688 ∧
    (waiting [.action .up] window).input.typeAhead = .action .up :: [] ∧
    window.form.overlay.isSome = true ∧ (⟨2, 7, 1, 8⟩ : Window).fits = true ∧
    (⟨2, 7, 1, 8⟩ : Window).contains window.form.cursor = true := by decide +kernel

theorem witness_FieldMoves :
    desk.form.lawful = true ∧ desk.input.entry = .openEntry ∧
    (waiting [.action .next] desk).input.typeAhead = .action .next :: [] ∧
    desk.form.eligible = [amountField, nameField] ∧
    (desk.form.current.bind (·.next)) = some 2 ∧
    ready.form.lawful = true ∧ ready.form.active = [] := by decide +kernel

theorem witness_BackReturns :
    (waiting [.action .back] desk).input.typeAhead = .action .back :: [] ∧
    desk.form.activeTag 2 = some nameField ∧ desk.form.current.map (·.tag) ≠ some 2 ∧
    ({ form4 with history := [2, 1] } : Form).history = [] ++ 2 :: [1] ∧
    form4.history = [] := by decide +kernel

theorem witness_CharPlaces :
    desk.form.lawful = true ∧ desk.form.storeLaw = true ∧ desk.input.entry = .openEntry ∧
    (waiting [.action (.char 0x37)] desk).input.typeAhead = .action (.char 0x37) :: [] ∧
    desk.form.current = some amountField ∧ amountField.kind = .entry ∧
    (classEntry desk.tables.classes 0x37).digit = true ∧ desk.form.insert = false ∧
    ({ form4 with insert := true, cursor := 203 } : Form).current = some nameField ∧
    (readCell form4.cells 203).glyph = 0 := by decide +kernel

theorem witness_ErasingEdits :
    desk.form.lawful = true ∧ desk.form.storeLaw = true ∧
    (waiting [.action .backspace] desk).input.typeAhead = .action .backspace :: [] ∧
    ({ form4 with cursor := 105 } : Form).current = some amountField ∧
    amountField.start < 105 ∧ desk.form.current = some amountField ∧
    amountField.kind = .entry := by decide +kernel

theorem witness_StepChangesValue :
    desk.form.lawful = true ∧ desk.form.storeLaw = true ∧
    (waiting [.action .stepUp] desk).input.typeAhead =
      .action (if true then .stepUp else .stepDown) :: [] ∧
    (waiting [.action .stepDown] desk).input.typeAhead =
      .action (if false then .stepUp else .stepDown) :: [] ∧
    desk.form.current = some amountField ∧ amountField.cls = .numeric amount ∧
    parseNumber amount 6 (desk.form.content false amountField) = .value 150 ∧
    parseNumber amount 6 [0, 0, 0, 0, 0, 0] = .empty := by decide +kernel

theorem witness_EditsRefused :
    desk.input.entry = .openEntry ∧
    (waiting [.action (.char 0x41)] desk).input.typeAhead = .action (.char 0x41) :: [] ∧
    desk.form.current = some amountField ∧
    admits desk.tables.classes amountField (foldGlyph desk.tables.classes amountField 0x41) =
      false ∧
    (readCell desk.form.cells (100 + 6 - 1)).glyph ≠ 0 ∧ desk.form.cursor = amountField.start ∧
    ready.form.current = none := by decide +kernel

theorem witness_CancelResetInsertToggle :
    (waiting [.action .cancel] desk).input.typeAhead = .action .cancel :: [] ∧
    desk.line.reply = none ∧
    (waiting [.action .reset] desk).input.typeAhead = .action .reset :: [] ∧
    (waiting [.action .insertToggle] desk).input.typeAhead = .action .insertToggle :: [] ∧
    State.reset.input.entry ≠ .openEntry ∧ desk.input.typeAhead.head? ≠ some (.action .next) ∧
    desk.input.typeAhead.head? ≠ some (.action (.char 0x41)) ∧
    desk.input.typeAhead.head? ≠ some (.action (.submit 24)) ∧
    desk.input.typeAhead.head? ≠ some .marker ∧ sendingNotice.line.reply ≠ none := by decide +kernel

theorem witness_SubmitSweepsAndBuilds :
    (waiting [.action (.submit 24)] ready).input.typeAhead = .action (.submit 24) :: [] ∧
    ready.line.reply = none ∧ ready.form.exitProcess.eligible = [] ∧
    desk.form.exitProcess.eligible = [amountField] ++ nameField :: [] ∧
    nameField.opts.mandatory = true ∧ nameField.errorMark = none ∧
    isEmptyContent (desk.form.content false nameField) = true ∧
    isPartial 4 [0x41, 0, 0, 0] = true := by decide +kernel

/-- A routing entry that recognises labels with a lead of 0x41 and submits with key 1. -/
def labelRoute : Route :=
  { first := { lead := [0x41], shortest := 1, longest := 48 }
    second := { target := 2, strip := 1, keep := .head, advance := true, key := 1, enable := true }
    staged := none }

/-- The desk with a scan to place, and a routing table. -/
def scanning (routes : List Route) (scan : List Byte) : State :=
  { desk with
    tables := { desk.tables with routes := routes }
    input := { desk.input with typeAhead := [.marker], scans := [scan] } }

theorem witness_ScanPlaced :
    (scanning [labelRoute] [0x41, 0x42, 0x43, 0x44, 0x45]).input.typeAhead = .marker :: [] ∧
    (scanning [labelRoute] [0x41, 0x42, 0x43, 0x44, 0x45]).input.scans =
      [0x41, 0x42, 0x43, 0x44, 0x45] :: [] ∧
    labelRoute.recognises [0x41, 0x42, 0x43, 0x44, 0x45] = true ∧
    labelRoute.recognises [0x42] = false ∧
    (scanning [] [0x37]).tables.matchScan [0x37] = plainPlace ∧
    desk.form.activeTag 2 = some nameField ∧ nameField.kind = .entry ∧
    candidatePasses desk.tables.classes nameField [0x42, 0x43, 0x44, 0x45] = true ∧
    candidatePasses desk.tables.classes nameField [0x42] = false ∧
    ready.form.current = none := by decide +kernel

theorem witness_PlacementWrites :
    form4.lawful = true ∧ form4.storeLaw = true ∧ amountField ∈ form4.active ∧
    amountField.kind = .entry ∧ nameField ∈ form4.active ∧
    exitTest amountField ([0x37] ++ List.replicate 5 0) = none ∧
    exitTest nameField ([0x42, 0x43, 0x44, 0x45] ++ List.replicate 0 0) = none := by decide +kernel

theorem witness_DisplayRows :
    ready.start.resetLow = false ∧ ready.display.column = none ∧
    (showing 27 95).display.column = some 95 ∧ (showing 27 95).display.row = 27 ∧
    (showing 0 0).display.column = some 0 := by decide +kernel

theorem witness_CellsRendered :
    form4.writeOwner 99 = none ∧ form4.writeOwner 100 = some amountField ∧
    (form5.writeOwner 200).map (·.tag) = some 9 ∧ amountField.alert = none ∧
    amountField.errorMark = none ∧ tallyField.kind = .tally := by decide +kernel

theorem witness_CanonicalParses :
    amount.scale ≤ 3 ∧ (amount.scale : Int) + 1 ≤ digitCapacity 6 amount.signed amount.scale ∧
    digitCapacity 6 amount.signed amount.scale ≤ 9 ∧
    (99999 : Int).natAbs ≤ largestMagnitude 6 amount.signed amount.scale ∧
    amount.lower ≤ 99999 ∧ (99999 : Int) ≤ amount.upper ∧
    parseCase.signed = true ∧ (∀ b ∈ ([0x33] : List Byte) ++ [0x34, 0x35, 0x36],
      0x30 ≤ b.toNat ∧ b.toNat ≤ 0x39) ∧
    ([0x2D, 0x33, 0x2E, 0x34, 0x35, 0x36] : List Byte) =
      [0x2D] ++ [0x33] ++ 0x2E :: [0x34, 0x35, 0x36] ∧
    ∀ b ∈ ([0] : List Byte) ++ [0x20], b = 0x00 ∨ b = 0x20 := by decide +kernel

/-- R66: a letter is spelt by no sign, digits and point. -/
theorem witness_CanonicalParses_format (negative : Bool) (whole fraction : List Byte)
    (digits : ∀ b ∈ whole ++ fraction, 0x30 ≤ b.toNat ∧ b.toNat ≤ 0x39) :
    let sign : List Byte := if negative then [0x2D] else []
    ¬([0x41] = sign ++ whole ++ 0x2E :: fraction ∨ (fraction = [] ∧ [0x41] = sign ++ whole)) := by
  rintro sign (h | ⟨-, h⟩)
  · have point : (0x2E : Byte) ∈ ([0x41] : List Byte) := by rw [h]; simp
    exact absurd point (by decide)
  · cases negative with
    | true => simp [sign] at h
    | false =>
      have letter : (0x41 : Byte) ∈ whole := by simp [sign] at h; simp [← h]
      exact absurd (digits _ (List.mem_append_left _ letter)) (by decide)

theorem witness_CheckDigits :
    ([0x34, 0x30] : List Byte) ≠ [] ∧
    (∀ b ∈ ([0x34, 0x30] : List Byte) ++ [0x38], 0x30 ≤ b.toNat ∧ b.toNat ≤ 0x39) ∧
    (∀ b ∈ ([0, 0x20] : List Byte), b = 0x00 ∨ b = 0x20) ∧
    codeTest .mod10w31 false 5 [0x34, 0x30, 0x36, 0, 0x20] = none ∧
    (∀ b, ([0x41] : List Byte).getLast? = some b → b ≠ 0x00 ∧ b ≠ 0x20) ∧
    (∀ b, ([] : List Byte).getLast? = some b → b ≠ 0x00 ∧ b ≠ 0x20) ∧
    nameField.cls = .alpha ∧ nameField.opts.fillWhole = true ∧ amountField.cls = .numeric amount ∧
    clockField.cls = .none ∧ (record 7 0 8 .entry (.code .mod11)).cls = .code .mod11 ∧
    mod11Digit [0x36] = none := by decide +kernel

theorem witness_EntryQueueStoreRangeLawsKept :
    (desk.heldLaw = true ∧ desk.input.queueLaw = true ∧ desk.form.storeLaw = true ∧
      midnight.rangeLaw = true) ∧
    step { midnight with pending := [.baseTick] } = .next midnight.tick :=
  ⟨by decide +kernel, rfl⟩

/-- What DRDY_WITHDRAWN leaves of a state. -/
def withdrawn (s : State) : State :=
  { s with display := { s.display with column := none, ready := false } }

theorem witness_TableLawKept :
    (desk.tableLaw = true ∧ desk.form.cursorLaw = true ∧ desk.form.modifiedLaw = true ∧
      window.tableLaw = true ∧ window.form.cursorLaw = true) ∧
    step { desk with pending := [.drdyWithdrawn] } = .next (withdrawn desk) :=
  ⟨by decide +kernel, rfl⟩

theorem witness_ModifiedProtected :
    (keyed.tableLaw = true ∧ keyed.form.storeLaw = true ∧
      keyed.form.record 1 = some (Field.marked amountField, false) ∧
      (Field.marked amountField).modified = true ∧ (Field.marked amountField).kind = .entry ∧
      (Instr.write [0x41]).isOperatorOrReset = false ∧
      (Instr.restore 0).isOperatorOrReset = false ∧ (Instr.cursor 0 0).runsExit = true ∧
      keyed.form.visit = false ∧
      window.form.record 2 = some ({ nameField with modified := true }, true)) ∧
    exec (.drdyWithdrawn) keyed = .next (withdrawn keyed) :=
  ⟨by decide +kernel, rfl⟩

end Sys2Proof.Tests
end

section
/-! PROOFS. UNMARK: its body once per case of R36, and the statement about it. -/

namespace Sys2Proof.Machine

open Sys2Proof

/-- UNMARK runs as a directive with its own body. -/
theorem exec_unmark (tag : Byte) (s : State) :
    exec (.unmark tag) s = .next (s.directive (.unmark tag) (bodyUnmark tag)) := rfl

/-- Tag 0 reaches every record (R36). -/
theorem bodyUnmark_zero (s : State) :
    bodyUnmark 0 s = .ok { s with form := s.form.mapRecords Field.unmarked } := rfl

/-- A tag beyond 250 is refused before the table is searched (R36). -/
theorem bodyUnmark_of_lt {tag : Byte} (tooBig : 250 < tag.toNat) (s : State) :
    bodyUnmark tag s = .error .tag := by
  have nonzero : tag ≠ 0 := by
    rintro rfl
    simp at tooBig
  rw [bodyUnmark, if_neg nonzero, if_pos tooBig]

/-- A tag in range is looked up in the whole table, and the record found is cleared wherever it stands
(R20, R36). -/
theorem bodyUnmark_of_le {tag : Byte} (nonzero : tag ≠ 0) (within : tag.toNat ≤ 250) (s : State) :
    bodyUnmark tag s =
      if s.form.record tag.toNat = none then .error .noField
      else .ok { s with form := s.form.mapTag tag.toNat Field.unmarked } := by
  rw [bodyUnmark, if_neg nonzero, if_neg (Nat.not_lt.mpr within)]
  cases s.form.record tag.toNat <;> simp

/-- Settles O27: one case of R36 each, an accepted body moving the offset on and a refused one ending
the block. -/
theorem unmarkClears : Obligations.UnmarkClears := by
  intro s tag left reached clear
  simp only [exec_unmark]
  refine ⟨?every, ?beyond, ?unheld, ?held⟩
  case every =>
    rintro rfl
    rw [State.directive_ok reached (bodyUnmark_zero s)]
    rfl
  case beyond =>
    intro tooBig
    rw [State.directive_error reached (bodyUnmark_of_lt tooBig s)]
  case unheld =>
    rintro ⟨nonzero, within⟩ unheld
    have refused : bodyUnmark tag s = .error .noField := by
      rw [bodyUnmark_of_le nonzero within, if_pos unheld]
    rw [State.directive_error reached refused]
  case held =>
    rintro ⟨nonzero, within⟩ held
    have accepted : bodyUnmark tag s =
        .ok { s with form := s.form.mapTag tag.toNat Field.unmarked } := by
      rw [bodyUnmark_of_le nonzero within, if_neg held]
    rw [State.directive_ok reached accepted]
    rfl

end Sys2Proof.Machine
end

section
/-! PROOFS. AT: a row and a column as a position, the body of AT on either side of the bounds of R47, and
the statement about it. -/

namespace Sys2Proof.Machine

open Sys2Proof

/-- A row and a column on the screen are a position, counted row by row (R47). -/
theorem positionOf_of_le {row col : Byte} (rowFits : row.toNat ≤ 27) (colFits : col.toNat ≤ 95) :
    positionOf row col = .ok (row.toNat * 96 + col.toNat) :=
  if_neg (not_or.mpr ⟨Nat.not_le.mpr (Nat.lt_succ_of_le rowFits),
    Nat.not_le.mpr (Nat.lt_succ_of_le colFits)⟩)

/-- A row over 27 or a column over 95 is no position (R47). -/
theorem positionOf_of_lt {row col : Byte} (outside : 27 < row.toNat ∨ 95 < col.toNat) :
    positionOf row col = .error .range :=
  if_pos outside

/-- AT runs as a directive with its own body. -/
theorem exec_setAt (row col : Byte) (s : State) :
    exec (.setAt row col) s = .next (s.directive (.setAt row col) (bodySetAt row col)) := rfl

/-- On the screen the body of AT moves the write position and keeps the rest, the current style with it
(R47). -/
theorem bodySetAt_of_le {row col : Byte} (rowFits : row.toNat ≤ 27) (colFits : col.toNat ≤ 95)
    (s : State) :
    bodySetAt row col s =
      .ok { s with stream := { s.stream with writePos := row.toNat * 96 + col.toNat } } := by
  rw [bodySetAt, positionOf_of_le rowFits colFits]

/-- Off the screen the body of AT is refused (R47). -/
theorem bodySetAt_of_lt {row col : Byte} (outside : 27 < row.toNat ∨ 95 < col.toNat) (s : State) :
    bodySetAt row col s = .error .range := by
  rw [bodySetAt, positionOf_of_lt outside]

/-- Settles O17: on the screen the body is accepted and the offset moves on, off the screen the refusal
ends the block. -/
theorem atSetsWritePosition : Obligations.AtSetsWritePosition := by
  intro s row col left reached
  simp only [exec_setAt]
  refine ⟨?accepted, ?refused⟩
  case accepted =>
    rintro ⟨rowFits, colFits⟩
    rw [State.directive_ok reached (bodySetAt_of_le rowFits colFits s)]
  case refused =>
    intro outside
    rw [State.directive_error reached (bodySetAt_of_lt outside s)]

end Sys2Proof.Machine
end

section
/-! PROOFS. The Value Unit's tests of ALPHA and CODE content: what the blanks at the end leave, the
weighted sum by places, the check rules as sums with the check digit, and the statement about them. -/

namespace Sys2Proof.Machine

open Sys2Proof

/-! ## Glyphs and trimming (R66, R71) -/

theorem isBlank_iff (b : Byte) : isBlank b = true ↔ b = 0x00 ∨ b = 0x20 := by
  rw [isBlank, Bool.or_eq_true, decide_eq_true_iff, decide_eq_true_iff, nullGlyph, spaceGlyph]

theorem isDigit_iff (b : Byte) : isDigit b = true ↔ 0x30 ≤ b.toNat ∧ b.toNat ≤ 0x39 := by
  rw [isDigit, Bool.and_eq_true, decide_eq_true_iff, decide_eq_true_iff]

/-- Content whose last glyph is not a blank ends in no blank at all. -/
theorem trimEnd_eq_self {code : List Byte}
    (solid : ∀ b, code.getLast? = some b → b ≠ 0x00 ∧ b ≠ 0x20) : trimEnd code = code := by
  refine List.rdropWhile_eq_self_iff.mpr fun nonempty blank => ?_
  obtain ⟨notNull, notSpace⟩ := solid _ (List.getLast?_eq_getLast_of_ne_nil nonempty)
  exact ((isBlank_iff _).mp blank).elim notNull notSpace

/-- Only the blanks at the end are set aside (R71). -/
theorem trimEnd_append_of_blank {code tail : List Byte}
    (blank : ∀ b ∈ tail, b = 0x00 ∨ b = 0x20)
    (solid : ∀ b, code.getLast? = some b → b ≠ 0x00 ∧ b ≠ 0x20) :
    trimEnd (code ++ tail) = code := by
  have tailBlank : ∀ b ∈ tail.reverse, isBlank b = true := fun b held =>
    (isBlank_iff b).mpr (blank b (List.mem_reverse.mp held))
  calc trimEnd (code ++ tail)
      = trimEnd code := by
        rw [trimEnd, List.reverse_append, List.dropWhile_append_of_pos tailBlank, trimEnd]
    _ = code := trimEnd_eq_self solid

/-- Content is empty exactly when trimming leaves nothing (R18). -/
theorem isEmptyContent_iff (content : List Byte) :
    isEmptyContent content = true ↔ trimEnd content = [] := by
  rw [isEmptyContent, List.all_eq_true]
  exact List.rdropWhile_eq_nil_iff.symm

/-- Content is partial when trimming leaves something shorter than the field (R71). -/
theorem isPartial_iff (length : Nat) (content : List Byte) :
    isPartial length content = true ↔
      0 < (trimEnd content).length ∧ (trimEnd content).length < length := by
  rw [isPartial, Bool.and_eq_true, decide_eq_true_iff, decide_eq_true_iff, usedLength]

/-! ## The weighted sum (R73, R74) -/

/-- The weighted sum by places counted from the first digit given. -/
theorem weightedSum_eq_sum_range (weight : Nat → Nat) (first : Nat) (digits : List Byte) :
    weightedSum weight first digits =
      ((List.range digits.length).map fun i =>
        digitValue (digits.getD i 0x30) * weight (first + i)).sum := by
  induction digits generalizing first with
  | nil => rfl
  | cons d rest ih =>
    simp [weightedSum, ih, List.range_succ_eq_map, Function.comp_def, Nat.add_assoc,
      Nat.add_comm 1]

/-- The weighted sum of data digits by places counted from the right. -/
theorem weightedSum_reverse (weight : Nat → Nat) (data : List Byte) :
    weightedSum weight 0 data.reverse =
      ((List.range data.length).map fun i =>
        digitValue (data.getD (data.length - 1 - i) 0x30) * weight i).sum := by
  rw [weightedSum_eq_sum_range, List.length_reverse]
  congr 1
  refine List.map_congr_left fun i place => ?_
  rw [List.getD_reverse i (List.mem_range.mp place), Nat.zero_add]

/-- The weights 3, 1 from the right, alternating (R73). -/
theorem weight31_eq (i : Nat) : (if i % 2 = 0 then 3 else 1) = [3, 1].getD (i % 2) 0 := by
  obtain even | odd := Nat.mod_two_eq_zero_or_one i
  · simp [even]
  · simp [odd]

/-- The weights 2 to 7 from the right, repeating (R74). -/
theorem weight2to7_eq (i : Nat) : 2 + i % 6 = [2, 3, 4, 5, 6, 7].getD (i % 6) 0 := by
  have inCycle : i % 6 < 6 := Nat.mod_lt i (by decide)
  generalize i % 6 = place at inCycle
  interval_cases place <;> rfl

/-! ## The check rules (R73, R74) -/

/-- The digit c is the check digit under MOD10W31 exactly when S + c is a multiple of 10 (R73). -/
theorem mod10w31Digit_eq_iff (data : List Byte) {c : Nat} (digit : c ≤ 9) :
    mod10w31Digit data = c ↔
      (weightedSum (fun i => [3, 1].getD (i % 2) 0) 0 data.reverse + c) % 10 = 0 := by
  rw [mod10w31Digit, funext weight31_eq]
  omega

/-- The digit c is the check digit under MOD11 exactly when S + c is a multiple of 11; a remainder
of 1 would ask for c = 10, which is no digit (R74). -/
theorem mod11Digit_eq_iff (data : List Byte) {c : Nat} (digit : c ≤ 9) :
    mod11Digit data = some c ↔
      (weightedSum (fun i => [2, 3, 4, 5, 6, 7].getD (i % 6) 0) 0 data.reverse + c) % 11 = 0 := by
  rw [mod11Digit, funext weight2to7_eq]
  split
  case isTrue zero => simp only [Option.some.injEq]; omega
  case isFalse nonzero =>
    split
    case isTrue one => simp only [reduceCtorEq, false_iff]; omega
    case isFalse notOne => simp only [Option.some.injEq]; omega

/-- No check digit stands after data digits whose sum leaves the remainder 1 (R74). -/
theorem add_digit_mod_eleven_ne_zero {sum c : Nat} (one : sum % 11 = 1) (digit : c ≤ 9) :
    (sum + c) % 11 ≠ 0 := by
  omega

@[simp] theorem checkDigitAgrees_none (code : List Byte) : checkDigitAgrees .none code = true := rfl

theorem checkDigitAgrees_mod10w31_iff (data : List Byte) (check : Byte) :
    checkDigitAgrees .mod10w31 (data ++ [check]) = true ↔
      mod10w31Digit data = digitValue check := by
  simp [checkDigitAgrees]

theorem checkDigitAgrees_mod11_iff (data : List Byte) (check : Byte) :
    checkDigitAgrees .mod11 (data ++ [check]) = true ↔
      mod11Digit data = some (digitValue check) := by
  simp [checkDigitAgrees]

/-! ## CODE content (R72) -/

/-- A trimmed code is well formed when it is digits alone, two at least under a check rule (R72). -/
def CodeFormed (rule : CheckRule) (code : List Byte) : Prop :=
  (∀ b ∈ code, 0x30 ≤ b.toNat ∧ b.toNat ≤ 0x39) ∧ (rule ≠ .none → 2 ≤ code.length)

/-- The test of FORMAT in `codeTest` finds the codes that are not well formed. -/
theorem not_codeFormed_iff (rule : CheckRule) (code : List Byte) :
    (!code.all isDigit || (rule ≠ .none && code.length < 2)) = true ↔ ¬CodeFormed rule code := by
  have digits : code.all isDigit = true ↔ ∀ b ∈ code, 0x30 ≤ b.toNat ∧ b.toNat ≤ 0x39 := by
    simp only [List.all_eq_true, isDigit_iff]
  rw [CodeFormed, ← digits]
  simp [imp_iff_not_or]

section

variable {rule : CheckRule} {length : Nat} {content code : List Byte}

/-- CODE content that trims to nothing passes. -/
theorem codeTest_of_empty (fillWhole : Bool) (trimmed : trimEnd content = code)
    (empty : code = []) :
    codeTest rule fillWhole length content = none := by
  rw [codeTest, if_pos ((isEmptyContent_iff content).mpr (trimmed.trans empty))]

/-- Ill-formed CODE content fails with FORMAT before any other test. -/
theorem codeTest_of_not_formed (fillWhole : Bool) (trimmed : trimEnd content = code)
    (nonempty : code ≠ []) (illFormed : ¬CodeFormed rule code) :
    codeTest rule fillWhole length content = some .format := by
  subst trimmed
  rw [codeTest, if_neg (mt (isEmptyContent_iff content).mp nonempty),
    if_pos ((not_codeFormed_iff rule _).mpr illFormed)]

/-- Well-formed CODE content goes through the fill-whole test and then the check rule. -/
theorem codeTest_of_formed (fillWhole : Bool) (trimmed : trimEnd content = code)
    (nonempty : code ≠ []) (formed : CodeFormed rule code) :
    codeTest rule fillWhole length content =
      if fillWhole && isPartial length content then some .incomplete
      else if checkDigitAgrees rule code then none else some .check := by
  subst trimmed
  rw [codeTest, if_neg (mt (isEmptyContent_iff content).mp nonempty),
    if_neg fun bad => (not_codeFormed_iff rule _).mp bad formed]

/-- Where the fill-whole test does not fail, only the check rule decides: a code under no rule
passes, and one under a rule is tested as in a field without the option. -/
theorem codeTest_of_filled {fillWhole : Bool} (trimmed : trimEnd content = code)
    (nonempty : code ≠ []) (formed : CodeFormed rule code)
    (filled : ¬(fillWhole && isPartial length content) = true) :
    codeTest rule fillWhole length content =
      if rule = .none then none else codeTest rule false length content := by
  rw [codeTest_of_formed fillWhole trimmed nonempty formed,
    codeTest_of_formed false trimmed nonempty formed, if_neg filled]
  cases rule <;> simp

end

/-- Data digits with a check digit, and blanks after them, are tested by the check rule alone. -/
theorem codeTest_digits_append {rule : CheckRule} {data tail : List Byte} {check : Byte}
    (length : Nat) (nonempty : data ≠ [])
    (digits : ∀ b ∈ data ++ [check], 0x30 ≤ b.toNat ∧ b.toNat ≤ 0x39)
    (blank : ∀ b ∈ tail, b = 0x00 ∨ b = 0x20) :
    codeTest rule false length (data ++ [check] ++ tail) =
      if checkDigitAgrees rule (data ++ [check]) then none else some .check := by
  have solid : ∀ b, (data ++ [check]).getLast? = some b → b ≠ 0x00 ∧ b ≠ 0x20 := by
    intro b last
    have low : 0x30 ≤ b.toNat := (digits b (List.mem_of_getLast? last)).1
    exact ⟨by rintro rfl; simp at low, by rintro rfl; simp at low⟩
  have twoAtLeast : 2 ≤ (data ++ [check]).length := by
    rw [List.length_append]
    exact Nat.add_le_add_right (List.length_pos_iff.mpr nonempty) 1
  rw [codeTest_of_formed false (trimEnd_append_of_blank blank solid) (by simp)
    ⟨digits, fun _ => twoAtLeast⟩]
  rfl

/-! ## The exit test by class (R75) -/

section

variable {f : Field}

theorem exitTest_of_alpha (alpha : f.cls = .alpha) (content : List Byte) :
    exitTest f content =
      if f.opts.fillWhole && isPartial f.length content then some .incomplete else none := by
  rw [exitTest, alpha]

theorem exitTest_of_code {rule : CheckRule} (code : f.cls = .code rule) (content : List Byte) :
    exitTest f content = codeTest rule f.opts.fillWhole f.length content := by
  rw [exitTest, code]

theorem exitTest_of_none (unclassed : f.cls = .none) (content : List Byte) :
    exitTest f content = none := by
  rw [exitTest, unclassed]

end

/-- Settles O56: the classes through their own equations of the exit test, with the content trimmed
to its code, and the check rules through the sum that the check digit completes. -/
theorem checkDigits : Obligations.CheckDigits := by
  refine ⟨?classes, ?rules⟩
  case classes =>
    intro f code tail blank solid tested partly unfilled digits
    have trimmed : trimEnd (code ++ tail) = code := trimEnd_append_of_blank blank solid
    have partialIff : isPartial f.length (code ++ tail) = true ↔ partly := by
      rw [isPartial_iff, trimmed]
    have unfilledIff :
        (f.opts.fillWhole && isPartial f.length (code ++ tail)) = true ↔ unfilled := by
      rw [Bool.and_eq_true, partialIff]
    refine ⟨partialIff, fun alpha => ⟨fun short => ?short, fun filled => ?filled⟩, ?code,
      fun n numeric => ?numeric, fun unclassed => exitTest_of_none unclassed _⟩
    case short => exact (exitTest_of_alpha alpha _).trans (if_pos (unfilledIff.mpr short))
    case filled => exact (exitTest_of_alpha alpha _).trans (if_neg (mt unfilledIff.mp filled))
    case code =>
      intro rule isCode formed
      have testedEq : tested = codeTest rule f.opts.fillWhole f.length (code ++ tail) :=
        exitTest_of_code isCode _
      rw [testedEq, ← unfilledIff]
      refine ⟨codeTest_of_empty _ trimmed, codeTest_of_not_formed _ trimmed,
        fun nonempty wellFormed short => ?_, codeTest_of_filled trimmed⟩
      rw [codeTest_of_formed _ trimmed nonempty wellFormed, if_pos short]
    case numeric =>
      change exitTest f (code ++ tail) = _
      unfold exitTest
      generalize f.cls = cls at numeric
      subst numeric
      rfl
  case rules =>
    intro data check length tail nonempty digits blank weighted ten eleven c
    have digit : digitValue check ≤ 9 := by
      have high : check.toNat ≤ 0x39 := (digits check (by simp)).2
      exact Nat.sub_le_of_le_add high
    have byTen : codeTest .mod10w31 false length (data ++ [check] ++ tail) =
        if (ten + c) % 10 = 0 then none else some .check := by
      rw [codeTest_digits_append length nonempty digits blank]
      refine if_congr ?_ rfl rfl
      rw [checkDigitAgrees_mod10w31_iff, mod10w31Digit_eq_iff data digit, weightedSum_reverse]
      rfl
    have byEleven : codeTest .mod11 false length (data ++ [check] ++ tail) =
        if (eleven + c) % 11 = 0 then none else some .check := by
      rw [codeTest_digits_append length nonempty digits blank]
      refine if_congr ?_ rfl rfl
      rw [checkDigitAgrees_mod11_iff, mod11Digit_eq_iff data digit, weightedSum_reverse]
      rfl
    exact ⟨byTen, byEleven, fun one =>
      byEleven.trans (if_neg (add_digit_mod_eleven_ne_zero one digit))⟩

end Sys2Proof.Machine
end

section
/-! PROOFS. The arrow actions: cells of a window by row and column, the four neighbours in a window
and in the whole store, and the statement about LEFT, RIGHT, UP and DOWN. -/

namespace Sys2Proof.Machine

open Sys2Proof

/-! ## Cells of a window (R134) -/

/-- The position of a window's cell, by its row and column counted from the window's corner
(R134). -/
def Window.cellAt (w : Window) (i j : Nat) : Nat :=
  (w.top + i) * screenCols + (w.left + j)

theorem Window.cellAt_eq (w : Window) (i j : Nat) :
    w.cellAt i j = (w.top + i) * 96 + (w.left + j) := rfl

theorem Window.right_le_of_fits {w : Window} (fits : w.fits = true) : w.left + w.width ≤ 96 := by
  simp only [Window.fits, Bool.and_eq_true, decide_eq_true_iff] at fits
  exact fits.2

/-- Every position that a window contains is one of its cells (R134). -/
theorem Window.exists_cellAt_of_contains {w : Window} {p : Nat} (held : w.contains p = true) :
    ∃ i j, i < w.height ∧ j < w.width ∧ p = w.cellAt i j := by
  simp only [Window.contains, screenCols, Bool.and_eq_true, decide_eq_true_iff] at held
  obtain ⟨⟨topLe, rowLt⟩, leftLe, colLt⟩ := held
  refine ⟨p / 96 - w.top, p % 96 - w.left, by omega, by omega, ?_⟩
  rw [Window.cellAt_eq]
  omega

section

variable {w : Window} {i j : Nat}

theorem Window.cellAt_div (fits : w.fits = true) (colIn : j < w.width) :
    w.cellAt i j / 96 = w.top + i := by
  have := Window.right_le_of_fits fits
  rw [Window.cellAt_eq]
  omega

theorem Window.cellAt_mod (fits : w.fits = true) (colIn : j < w.width) :
    w.cellAt i j % 96 = w.left + j := by
  have := Window.right_le_of_fits fits
  rw [Window.cellAt_eq]
  omega

/-- Moving on in a window's succession arrives at the cell whose index is the sum, whole laps of the
window set aside (R104). -/
theorem Window.shifted_cellAt {places r c : Nat} (laps : Nat) (fits : w.fits = true)
    (colIn : j < w.width) (rowTo : r < w.height) (colTo : c < w.width)
    (sum : i * w.width + j + places = r * w.width + c + laps * (w.height * w.width)) :
    w.shifted (w.cellAt i j) places = w.cellAt r c := by
  have inWindow : r * w.width + c < w.height * w.width :=
    calc r * w.width + c < r * w.width + w.width := Nat.add_lt_add_left colTo _
      _ = (r + 1) * w.width := (Nat.succ_mul r w.width).symm
      _ ≤ w.height * w.width := Nat.mul_le_mul_right _ rowTo
  have there : (i * w.width + j + places) % (w.height * w.width) = r * w.width + c := by
    rw [sum, Nat.add_mul_mod_self_right, Nat.mod_eq_of_lt inWindow]
  have rowThere : (r * w.width + c) / w.width = r := by
    rw [Nat.mul_comm, Nat.mul_add_div (Nat.zero_lt_of_lt colTo), Nat.div_eq_of_lt colTo,
      Nat.add_zero]
  have colThere : (r * w.width + c) % w.width = c :=
    Nat.mul_add_mod_of_lt colTo
  simp only [Window.shifted, screenCols, Window.cellAt_div fits colIn,
    Window.cellAt_mod fits colIn, Nat.add_sub_cancel_left, there, rowThere, colThere]
  rfl

end

/-! ## The neighbours in a window (R104, R105) -/

section

variable {w : Window} {p : Nat}

/-- One place on in a window. -/
theorem Window.shifted_one (fits : w.fits = true) (held : w.contains p = true) :
    w.shifted p 1 =
      if p % 96 < w.left + w.width - 1 then p + 1
      else if p / 96 < w.top + w.height - 1 then (p / 96 + 1) * 96 + w.left
      else w.top * 96 + w.left := by
  obtain ⟨i, j, rowIn, colIn, rfl⟩ := Window.exists_cellAt_of_contains held
  rw [Window.cellAt_div fits colIn, Window.cellAt_mod fits colIn]
  split_ifs with inRow above
  · exact Window.shifted_cellAt (r := i) (c := j + 1) 0 fits colIn rowIn (by omega) (by omega)
  · have lastCol : j + 1 = w.width := by omega
    exact Window.shifted_cellAt (r := i + 1) (c := 0) 0 fits colIn (by omega) (by omega)
      (by rw [Nat.succ_mul i]; omega)
  · have lastCol : j + 1 = w.width := by omega
    have lastRow : i + 1 = w.height := by omega
    exact Window.shifted_cellAt (r := 0) (c := 0) 1 fits colIn (by omega) (by omega)
      (by rw [← lastRow, Nat.succ_mul i]; omega)

/-- One place back in a window, which is one place short of a whole lap. -/
theorem Window.shifted_lap_sub_one (fits : w.fits = true) (held : w.contains p = true) :
    w.shifted p (w.height * w.width - 1) =
      if w.left < p % 96 then p - 1
      else if w.top < p / 96 then (p / 96 - 1) * 96 + (w.left + w.width - 1)
      else (w.top + w.height - 1) * 96 + (w.left + w.width - 1) := by
  obtain ⟨i, j, rowIn, colIn, rfl⟩ := Window.exists_cellAt_of_contains held
  rw [Window.cellAt_div fits colIn, Window.cellAt_mod fits colIn]
  have someCell : 0 < w.height * w.width :=
    Nat.mul_pos (Nat.zero_lt_of_lt rowIn) (Nat.zero_lt_of_lt colIn)
  split_ifs with inRow below
  · have arrives : w.shifted (w.cellAt i j) (w.height * w.width - 1) = w.cellAt i (j - 1) :=
      Window.shifted_cellAt 1 fits colIn rowIn (by omega) (by omega)
    rw [arrives, Window.cellAt_eq, Window.cellAt_eq]
    omega
  · obtain ⟨k, rfl⟩ : ∃ k, i = k + 1 := Nat.exists_eq_add_one.mpr (by omega)
    have arrives : w.shifted (w.cellAt (k + 1) j) (w.height * w.width - 1) =
        w.cellAt k (w.width - 1) :=
      Window.shifted_cellAt 1 fits colIn (by omega) (by omega) (by rw [Nat.succ_mul k]; omega)
    rw [arrives, Window.cellAt_eq]
    omega
  · obtain ⟨k, rows⟩ : ∃ k, w.height = k + 1 := Nat.exists_eq_add_one.mpr (by omega)
    obtain ⟨rfl, rfl⟩ : i = 0 ∧ j = 0 := by omega
    have arrives : w.shifted (w.cellAt 0 0) (w.height * w.width - 1) =
        w.cellAt k (w.width - 1) :=
      Window.shifted_cellAt 0 fits colIn (by omega) (by omega)
        (by rw [rows, Nat.succ_mul k]; omega)
    rw [arrives, Window.cellAt_eq]
    omega

/-- One row on in a window. -/
theorem Window.shifted_row (fits : w.fits = true) (held : w.contains p = true) :
    w.shifted p w.width =
      (if p / 96 = w.top + w.height - 1 then w.top else p / 96 + 1) * 96 + p % 96 := by
  obtain ⟨i, j, rowIn, colIn, rfl⟩ := Window.exists_cellAt_of_contains held
  rw [Window.cellAt_div fits colIn, Window.cellAt_mod fits colIn]
  split_ifs with bottom
  · have lastRow : i + 1 = w.height := by omega
    exact Window.shifted_cellAt (r := 0) (c := j) 1 fits colIn (by omega) colIn
      (by rw [← lastRow, Nat.succ_mul i]; omega)
  · exact Window.shifted_cellAt (r := i + 1) (c := j) 0 fits colIn (by omega) colIn
      (by rw [Nat.succ_mul i]; omega)

/-- One row back in a window, which is one row short of a whole lap. -/
theorem Window.shifted_lap_sub_row (fits : w.fits = true) (held : w.contains p = true) :
    w.shifted p ((w.height - 1) * w.width) =
      (if p / 96 = w.top then w.top + w.height - 1 else p / 96 - 1) * 96 + p % 96 := by
  obtain ⟨i, j, rowIn, colIn, rfl⟩ := Window.exists_cellAt_of_contains held
  rw [Window.cellAt_div fits colIn, Window.cellAt_mod fits colIn]
  obtain ⟨k, rows⟩ : ∃ k, w.height = k + 1 := Nat.exists_eq_add_one.mpr (by omega)
  rw [rows, Nat.add_sub_cancel]
  split_ifs with onTop
  · obtain rfl : i = 0 := by omega
    exact Window.shifted_cellAt (r := k) (c := j) 0 fits colIn (by omega) colIn (by omega)
  · obtain ⟨above, rfl⟩ : ∃ above, i = above + 1 := Nat.exists_eq_add_one.mpr (by omega)
    exact Window.shifted_cellAt (r := above) (c := j) 1 fits colIn (by omega) colIn
      (by rw [rows, Nat.succ_mul above, Nat.succ_mul k]; omega)

end

/-! ## Where the arrows go (R104, R105) -/

section

variable {fm : Form}

theorem Form.leftOf_of_store (closed : fm.overlay = none) (inStore : fm.cursor < 2688) :
    fm.leftOf = if fm.cursor = 0 then 2687 else fm.cursor - 1 := by
  simp only [Form.leftOf, closed, previousPosition, cellCount]
  split_ifs <;> omega

theorem Form.rightOf_of_store (closed : fm.overlay = none) (inStore : fm.cursor < 2688) :
    fm.rightOf = if fm.cursor = 2687 then 0 else fm.cursor + 1 := by
  simp only [Form.rightOf, closed, nextPosition, cellCount]
  split_ifs <;> omega

theorem Form.upOf_of_store (closed : fm.overlay = none) (inStore : fm.cursor < 2688) :
    fm.upOf = (if fm.cursor / 96 = 0 then 27 else fm.cursor / 96 - 1) * 96 + fm.cursor % 96 := by
  simp only [Form.upOf, closed, screenCols, cellCount]
  split_ifs <;> omega

theorem Form.downOf_of_store (closed : fm.overlay = none) (inStore : fm.cursor < 2688) :
    fm.downOf = (if fm.cursor / 96 = 27 then 0 else fm.cursor / 96 + 1) * 96 + fm.cursor % 96 := by
  simp only [Form.downOf, closed, screenCols, cellCount]
  split_ifs <;> omega

variable {o : Overlay}

theorem Form.leftOf_of_overlay (opened : fm.overlay = some o) :
    fm.leftOf = o.window.shifted fm.cursor (o.window.height * o.window.width - 1) := by
  rw [Form.leftOf, opened]

theorem Form.rightOf_of_overlay (opened : fm.overlay = some o) :
    fm.rightOf = o.window.shifted fm.cursor 1 := by
  rw [Form.rightOf, opened]

theorem Form.upOf_of_overlay (opened : fm.overlay = some o) :
    fm.upOf = o.window.shifted fm.cursor ((o.window.height - 1) * o.window.width) := by
  rw [Form.upOf, opened]

theorem Form.downOf_of_overlay (opened : fm.overlay = some o) :
    fm.downOf = o.window.shifted fm.cursor o.window.width := by
  rw [Form.downOf, opened]

end

/-! ## The arrow actions -/

theorem exec_left (s : State) : exec .left s = .next (s.moveAction .left false Form.leftOf) := rfl

theorem exec_right (s : State) :
    exec .right s = .next (s.moveAction .right false Form.rightOf) := rfl

theorem exec_up (s : State) : exec .up s = .next (s.moveAction .up false Form.upOf) := rfl

theorem exec_down (s : State) : exec .down s = .next (s.moveAction .down false Form.downOf) := rfl

/-- A cursor move that is due takes its entry and places the cursor at its goal (R95, R101). -/
theorem State.moveAction_of {s : State} {a : Action} {rest : List QueueEntry} {q : Nat}
    {goal : Form → Nat} (push : Bool) (opened : s.input.entry = .openEntry)
    (queued : s.input.typeAhead = .action a :: rest) (target : goal s.form = q) :
    s.moveAction a push goal = { s with
      input := { s.input with typeAhead := rest }
      form := s.form.moveTo s.tables.options.insertAtEntry push q } := by
  rw [State.moveAction, State.takeEntry_of opened queued, ← target]

/-- Settles O42: each arrow is a move that is due, its goal read off in the store or in the
window. -/
theorem cellMoves : Obligations.CellMoves := by
  intro s rest entryOpen p row col goes
  have goesOf {c : Instr} {a : Action} {goal : Form → Nat} {q : Nat}
      (arm : exec c s = .next (s.moveAction a false goal)) (target : goal s.form = q) :
      goes c a q := fun queued => by
    rw [arm, State.moveAction_of false entryOpen queued target]
  refine ⟨?store, ?window⟩
  case store =>
    intro closed inStore
    exact ⟨goesOf (exec_left s) (Form.leftOf_of_store closed inStore),
      goesOf (exec_right s) (Form.rightOf_of_store closed inStore),
      goesOf (exec_up s) (Form.upOf_of_store closed inStore),
      goesOf (exec_down s) (Form.downOf_of_store closed inStore)⟩
  case window =>
    intro o opened fits held w bottom side
    exact ⟨goesOf (exec_left s)
        ((Form.leftOf_of_overlay opened).trans (Window.shifted_lap_sub_one fits held)),
      goesOf (exec_right s)
        ((Form.rightOf_of_overlay opened).trans (Window.shifted_one fits held)),
      goesOf (exec_up s)
        ((Form.upOf_of_overlay opened).trans (Window.shifted_lap_sub_row fits held)),
      goesOf (exec_down s)
        ((Form.downOf_of_overlay opened).trans (Window.shifted_row fits held))⟩

end Sys2Proof.Machine
end

section
/-! PROOFS. The field table and the cells of its records: extents, the law taken apart, records found by
tag and by position, where a record's cells stand, and what a write of cells does to them. -/

namespace Sys2Proof.Machine

open Sys2Proof

/-! ## Extents (R17, R21, R134) -/

theorem Field.covers_iff {f : Field} {p : Nat} :
    f.covers p = true ↔ f.start ≤ p ∧ p < f.start + f.length := by
  simp [Field.covers]

theorem Field.mem_positions {f : Field} {p : Nat} : p ∈ f.positions ↔ f.covers p = true := by
  simp only [Field.positions, List.mem_map, List.mem_range, Field.covers_iff]
  constructor
  · rintro ⟨i, inside, rfl⟩
    omega
  · rintro ⟨low, high⟩
    exact ⟨p - f.start, by omega, by omega⟩

@[simp] theorem Field.length_positions (f : Field) : f.positions.length = f.length := by
  simp [Field.positions]

theorem Window.holds_iff {w : Window} {f : Field} :
    w.holds f = true ↔ ∀ p, f.covers p = true → w.contains p = true := by
  simp [Window.holds, Field.mem_positions]

theorem Window.touches_iff {w : Window} {f : Field} :
    w.touches f = true ↔ ∃ p, f.covers p = true ∧ w.contains p = true := by
  simp [Window.touches, Field.mem_positions]

theorem Field.sharesCell_iff {f g : Field} :
    f.sharesCell g = true ↔ ∃ p, f.covers p = true ∧ g.covers p = true := by
  simp [Field.sharesCell, Field.mem_positions]

theorem Field.precedes_iff {f g : Field} :
    f.precedes g = true ↔ f.start + f.length ≤ g.start := by
  simp [Field.precedes]

theorem Field.apart_iff {f g : Field} : f.apart g = true ↔
    f.start + f.length ≤ g.start ∨ g.start + g.length ≤ f.start := by
  simp [Field.apart, Field.precedes_iff]

theorem Field.apart_comm (f g : Field) : f.apart g = g.apart f := by
  rw [Field.apart, Field.apart, Bool.or_comm]

/-- Records that are apart cover no position together. -/
theorem Field.not_covers_of_apart {f g : Field} {p : Nat} (apart : f.apart g = true)
    (covered : f.covers p = true) : g.covers p = false := by
  rw [Field.apart_iff] at apart
  rw [Field.covers_iff] at covered
  refine Bool.eq_false_iff.mpr fun both => ?_
  rw [Field.covers_iff] at both
  omega

theorem Field.placed_iff {f : Field} : f.placed = true ↔
    1 ≤ f.length ∧ f.start % 96 + f.length ≤ 96 ∧ f.start < 2688 := by
  simp [Field.placed, screenCols, cellCount, and_assoc]

/-- A record that stands covers its first cell. -/
theorem Field.covers_start {f : Field} (placed : f.placed = true) : f.covers f.start = true := by
  rw [Field.placed_iff] at placed
  rw [Field.covers_iff]
  omega

/-- Records that stand are apart exactly when they share no cell (R23). -/
theorem Field.sharesCell_eq_not_apart {f g : Field} (fPlaced : f.placed = true)
    (gPlaced : g.placed = true) : f.sharesCell g = !f.apart g := by
  rw [Field.placed_iff] at fPlaced gPlaced
  rw [Bool.eq_iff_iff, Field.sharesCell_iff, Bool.not_eq_true', ← Bool.not_eq_true,
    Field.apart_iff]
  simp only [Field.covers_iff]
  constructor
  · rintro ⟨p, inF, inG⟩
    omega
  · intro meet
    exact ⟨max f.start g.start, by omega, by omega⟩

/-! ## The law of the field table, taken apart (R17, R20, R21, R134) -/

theorem inOrder_iff {l : List Field} :
    inOrder l = true ↔ l.Pairwise fun f g => f.precedes g = true := by
  induction l with
  | nil => simp [inOrder]
  | cons f rest ih => simp [inOrder, ih]

/-- What the law of the field table says of an open overlay (R135, R137, R138, R143). -/
structure Form.WindowLawful (fm : Form) (o : Overlay) : Prop where
  fits : o.window.fits = true
  wholly : ∀ f ∈ fm.active, o.window.holds f = true ∨ o.window.touches f = false
  apart : ∀ f ∈ fm.active, o.window.holds f = true ∨ ∀ g ∈ o.suspended, f.apart g = true

/-- The law of the field table by its clauses. -/
structure Form.Lawful (fm : Form) : Prop where
  activePlaced : ∀ f ∈ fm.active, f.placed = true
  suspendedPlaced : ∀ f ∈ fm.suspended, f.placed = true
  activeOrder : fm.active.Pairwise fun f g => f.precedes g = true
  suspendedOrder : fm.suspended.Pairwise fun f g => f.precedes g = true
  tags : ((fm.active ++ fm.suspended).map (·.tag)).Nodup
  room : fm.active.length + fm.suspended.length ≤ poolSize
  window : ∀ o, fm.overlay = some o → fm.WindowLawful o

theorem Form.windowLaw_iff {fm : Form} :
    fm.windowLaw = true ↔ ∀ o, fm.overlay = some o → fm.WindowLawful o := by
  unfold Form.windowLaw
  cases fm.overlay with
  | none => simp
  | some o =>
    simp only [Bool.and_eq_true, List.all_eq_true, Bool.or_eq_true, Bool.not_eq_true',
      Option.some.injEq, forall_eq']
    exact ⟨fun ⟨⟨fits, wholly⟩, apart⟩ => ⟨fits, wholly, apart⟩,
      fun law => ⟨⟨law.fits, law.wholly⟩, law.apart⟩⟩

theorem Form.lawful_iff {fm : Form} : fm.lawful = true ↔ fm.Lawful := by
  simp only [Form.lawful, Bool.and_eq_true, tagsDiffer, decide_eq_true_iff, inOrder_iff,
    Form.windowLaw_iff, List.all_append, List.all_eq_true]
  exact ⟨fun ⟨⟨⟨⟨⟨⟨active, suspended⟩, order⟩, order'⟩, tags⟩, room⟩, window⟩ =>
      ⟨active, suspended, order, order', tags, room, window⟩,
    fun law => ⟨⟨⟨⟨⟨⟨law.activePlaced, law.suspendedPlaced⟩, law.activeOrder⟩,
      law.suspendedOrder⟩, law.tags⟩, law.room⟩, law.window⟩⟩

/-- Two records of a list in position order are the same or apart. -/
theorem eq_or_apart_of_order {l : List Field}
    (order : l.Pairwise fun f g => f.precedes g = true) {f g : Field} (hf : f ∈ l) (hg : g ∈ l) :
    f = g ∨ f.apart g = true := by
  by_cases same : f = g
  · exact .inl same
  · refine .inr ?_
    have symmetric : Std.Symm fun a b : Field => a.apart b = true :=
      ⟨fun a b h => by rwa [Field.apart_comm]⟩
    have pairwise : l.Pairwise fun a b => a.apart b = true :=
      order.imp fun h => by simp [Field.apart, h]
    exact pairwise.forall hf hg same

/-! ## The records of the table (R20, R21) -/

/-- The active or the suspended records. -/
def Form.records (fm : Form) (susp : Bool) : List Field := if susp then fm.suspended else fm.active

@[simp] theorem Form.records_false (fm : Form) : fm.records false = fm.active := rfl
@[simp] theorem Form.records_true (fm : Form) : fm.records true = fm.suspended := rfl

theorem Form.suspended_of_overlay {fm : Form} {o : Overlay} (opened : fm.overlay = some o) :
    fm.suspended = o.suspended := by rw [Form.suspended, opened]

theorem Form.suspended_of_closed {fm : Form} (closed : fm.overlay = none) :
    fm.suspended = [] := by rw [Form.suspended, closed]

theorem find?_tag_eq_some_iff {l : List Field} (tags : (l.map (·.tag)).Nodup) {t : Nat} {f : Field} :
    l.find? (·.tag == t) = some f ↔ f ∈ l ∧ f.tag = t := by
  constructor
  · intro found
    exact ⟨List.mem_of_find?_eq_some found, by simpa using List.find?_some found⟩
  · rintro ⟨held, rfl⟩
    obtain ⟨g, found⟩ := Option.isSome_iff_exists.mp
      (List.find?_isSome.mpr ⟨f, held, beq_self_eq_true f.tag⟩ :
        (l.find? (·.tag == f.tag)).isSome = true)
    rw [found, List.inj_on_of_nodup_map tags (List.mem_of_find?_eq_some found) held
      (by simpa using List.find?_some found)]

section

variable {fm : Form}

theorem Form.Lawful.activeTags (law : fm.Lawful) : (fm.active.map (·.tag)).Nodup :=
  (List.nodup_append.mp (List.map_append ▸ law.tags)).1

theorem Form.Lawful.suspendedTags (law : fm.Lawful) : (fm.suspended.map (·.tag)).Nodup :=
  (List.nodup_append.mp (List.map_append ▸ law.tags)).2.1

theorem Form.Lawful.tag_ne (law : fm.Lawful) {f g : Field} (active : f ∈ fm.active)
    (suspended : g ∈ fm.suspended) : f.tag ≠ g.tag :=
  (List.nodup_append.mp (List.map_append ▸ law.tags)).2.2 _ (List.mem_map_of_mem active) _
    (List.mem_map_of_mem suspended)

theorem Form.Lawful.placed (law : fm.Lawful) {f : Field} {susp : Bool}
    (held : f ∈ fm.records susp) : f.placed = true := by
  cases susp
  · exact law.activePlaced f held
  · exact law.suspendedPlaced f held

theorem Form.Lawful.order (law : fm.Lawful) (susp : Bool) :
    (fm.records susp).Pairwise fun f g => f.precedes g = true := by
  cases susp
  · exact law.activeOrder
  · exact law.suspendedOrder

theorem Form.Lawful.activeTag_iff (law : fm.Lawful) {t : Nat} {f : Field} :
    fm.activeTag t = some f ↔ f ∈ fm.active ∧ f.tag = t :=
  find?_tag_eq_some_iff law.activeTags

theorem Form.Lawful.suspendedTag_iff (law : fm.Lawful) {t : Nat} {f : Field} :
    fm.suspendedTag t = some f ↔ f ∈ fm.suspended ∧ f.tag = t :=
  find?_tag_eq_some_iff law.suspendedTags

/-- The record of a tag is the one record, active or suspended, that has the tag (R20). -/
theorem Form.Lawful.record_iff (law : fm.Lawful) {t : Nat} {f : Field} {susp : Bool} :
    fm.record t = some (f, susp) ↔ f ∈ fm.records susp ∧ f.tag = t := by
  unfold Form.record
  cases active : fm.activeTag t with
  | some g =>
    obtain ⟨held, rfl⟩ := law.activeTag_iff.mp active
    cases susp with
    | false =>
      rw [Form.records_false, ← law.activeTag_iff, active]
      simp
    | true =>
      simp only [Option.some.injEq, Prod.mk.injEq, Bool.false_eq_true, and_false, false_iff,
        Form.records_true]
      exact fun ⟨suspended, same⟩ => law.tag_ne held suspended same.symm
  | none =>
    cases susp with
    | false =>
      rw [Form.records_false, ← law.activeTag_iff, active]
      simp
    | true =>
      rw [Form.records_true, ← law.suspendedTag_iff]
      simp

/-- The record that stands at a position is the one that covers it (R21). -/
theorem find?_covers_eq_some_iff {l : List Field}
    (order : l.Pairwise fun f g => f.precedes g = true) {p : Nat} {f : Field} :
    l.find? (·.covers p) = some f ↔ f ∈ l ∧ f.covers p = true := by
  constructor
  · intro found
    have covered := List.find?_some found
    exact ⟨List.mem_of_find?_eq_some found, covered⟩
  · rintro ⟨held, covered⟩
    obtain ⟨g, found⟩ := Option.isSome_iff_exists.mp
      (List.find?_isSome.mpr ⟨f, held, covered⟩ : (l.find? (·.covers p)).isSome = true)
    obtain same | apart := eq_or_apart_of_order order held (List.mem_of_find?_eq_some found)
    · rw [found, same]
    · have := List.find?_some found
      rw [Field.not_covers_of_apart apart covered] at this
      cases this

theorem Form.Lawful.fieldAt_iff (law : fm.Lawful) {p : Nat} {f : Field} :
    fm.fieldAt p = some f ↔ f ∈ fm.active ∧ f.covers p = true :=
  find?_covers_eq_some_iff law.activeOrder

theorem Form.fieldAt_eq_none_iff {p : Nat} :
    fm.fieldAt p = none ↔ ∀ f ∈ fm.active, f.covers p = false := by
  simp [Form.fieldAt]

theorem Form.inWindow_of_overlay {o : Overlay} (opened : fm.overlay = some o) (p : Nat) :
    fm.inWindow p = o.window.contains p := by rw [Form.inWindow, opened]

theorem Form.inWindow_of_closed (closed : fm.overlay = none) (p : Nat) :
    fm.inWindow p = false := by rw [Form.inWindow, closed]

theorem Form.inWindow_eq_window (fm : Form) (p : Nat) :
    fm.inWindow p = fm.window.any (·.contains p) := by
  unfold Form.inWindow Form.window
  cases fm.overlay <;> rfl

theorem Form.reachable_iff {f : Field} :
    fm.reachable f = true ↔ ∀ o, fm.overlay = some o → o.window.holds f = true := by
  unfold Form.reachable
  cases fm.overlay <;> simp

/-- An active record with a cell in the window lies wholly inside it (R137). -/
theorem Form.Lawful.holds_of_contains (law : fm.Lawful) {f : Field} (active : f ∈ fm.active)
    {o : Overlay} (opened : fm.overlay = some o) {p : Nat} (covered : f.covers p = true)
    (inside : o.window.contains p = true) : o.window.holds f = true := by
  refine ((law.window o opened).wholly f active).resolve_right fun clear => ?_
  rw [Window.touches_iff.mpr ⟨p, covered, inside⟩] at clear
  cases clear

/-! ## Where the cells of a record stand (R18, R134) -/

/-- The cell of a suspended record at a position inside the window is a saved one (R18). -/
def Form.inSaved (fm : Form) (susp : Bool) (p : Nat) : Bool := susp && fm.inWindow p

/-- A cell of the screen store or of the save area. -/
def Form.storedCell (fm : Form) (saved : Bool) (p : Nat) : Cell :=
  if saved then (fm.savedCell p).getD blankCell else readCell fm.cells p

@[simp] theorem Form.storedCell_false (fm : Form) (p : Nat) :
    fm.storedCell false p = readCell fm.cells p := rfl
@[simp] theorem Form.inSaved_false (fm : Form) (p : Nat) : fm.inSaved false p = false := rfl
@[simp] theorem Form.inSaved_true (fm : Form) (p : Nat) : fm.inSaved true p = fm.inWindow p := rfl

theorem Form.cellOf_eq_storedCell (fm : Form) (susp : Bool) (p : Nat) :
    fm.cellOf susp p = fm.storedCell (fm.inSaved susp p) p := by
  unfold Form.cellOf Form.storedCell Form.inSaved Form.inWindow Form.savedCell
  cases susp with
  | false => simp
  | true =>
    cases fm.overlay with
    | none => simp
    | some o => simp

@[simp] theorem Form.cellOf_false (fm : Form) (p : Nat) :
    fm.cellOf false p = readCell fm.cells p := rfl

/-- Two different records have no cell in common, on the screen or saved (R21, R137, R143). -/
theorem Form.Lawful.inSaved_ne (law : fm.Lawful) {f g : Field} {susp susp' : Bool}
    (hf : f ∈ fm.records susp) (hg : g ∈ fm.records susp') (differ : f.tag ≠ g.tag) {p : Nat}
    (inF : f.covers p = true) (inG : g.covers p = true) :
    fm.inSaved susp p ≠ fm.inSaved susp' p := by
  have sameList : ∀ b, f ∈ fm.records b → g ∈ fm.records b → False := fun b hf hg => by
    obtain rfl | apart := eq_or_apart_of_order (law.order b) hf hg
    · exact differ rfl
    · rw [Field.not_covers_of_apart apart inF] at inG
      cases inG
  have mixed : ∀ {a b : Field}, a ∈ fm.active → b ∈ fm.suspended → a.covers p = true →
      b.covers p = true → fm.inWindow p = true := fun {a b} active suspended inA inB => by
    cases opened : fm.overlay with
    | none => rw [Form.suspended_of_closed opened] at suspended; cases suspended
    | some o =>
      rw [Form.suspended_of_overlay opened] at suspended
      rw [Form.inWindow_of_overlay opened]
      obtain held | apart := (law.window o opened).apart a active
      · exact Window.holds_iff.mp held p inA
      · rw [Field.not_covers_of_apart (apart b suspended) inA] at inB
        cases inB
  cases susp <;> cases susp'
  case false.false => exact (sameList false hf hg).elim
  case true.true => exact (sameList true hf hg).elim
  case false.true => simp [mixed hf hg inF inG]
  case true.false => simp [mixed hg hf inG inF]

end

/-! ## Writes of cells (R1, R18, R19) -/

/-- What the canonical form of the stores says of the save area. -/
theorem Form.storeLaw_iff {fm : Form} : fm.storeLaw = true ↔
    storeWf fm.cells = true ∧ ∀ o, fm.overlay = some o → storeWf o.savedCells = true := by
  unfold Form.storeLaw
  cases fm.overlay <;> simp

section

variable {fm : Form}

theorem Form.setCellOf_true_of_inWindow {o : Overlay} (opened : fm.overlay = some o) {p : Nat}
    (inside : o.window.contains p = true) (c : Cell) : fm.setCellOf true p c =
      { fm with overlay := some { o with savedCells := writeCell o.savedCells p c } } := by
  unfold Form.setCellOf
  rw [opened]
  exact if_pos inside

/-- A cell that is not a saved one is written on the screen. -/
theorem Form.setCellOf_of_not_inSaved {susp : Bool} {p : Nat} (screen : fm.inSaved susp p = false)
    (c : Cell) : fm.setCellOf susp p c = fm.setScreen p c := by
  cases susp with
  | false => rfl
  | true =>
    unfold Form.setCellOf
    cases opened : fm.overlay with
    | none => rfl
    | some o =>
      rw [Form.inSaved_true, Form.inWindow_of_overlay opened] at screen
      simp [screen]

theorem Form.setCellOf_storeLaw (canonical : fm.storeLaw = true) (susp : Bool) (p : Nat) (c : Cell) :
    (fm.setCellOf susp p c).storeLaw = true := by
  rw [Form.storeLaw_iff] at canonical
  obtain ⟨screen, saved⟩ := canonical
  cases place : fm.inSaved susp p with
  | false =>
    rw [Form.setCellOf_of_not_inSaved place, Form.storeLaw_iff]
    exact ⟨writeCell_wf p c screen, saved⟩
  | true =>
    obtain ⟨rfl, inside⟩ := Bool.and_eq_true_iff.mp place
    cases opened : fm.overlay with
    | none => rw [Form.inWindow_of_closed opened] at inside; cases inside
    | some o =>
      rw [Form.inWindow_of_overlay opened] at inside
      rw [Form.setCellOf_true_of_inWindow opened inside, Form.storeLaw_iff]
      refine ⟨screen, ?_⟩
      rintro _ ⟨⟩
      exact writeCell_wf p c (saved o opened)

/-- A cell that is not blank is read back from every store, canonical or not. -/
theorem readCell_writeCell_nonblank (l : Store) (p : Nat) {c : Cell} (shown : c ≠ blankCell) :
    readCell (writeCell l p c) p = c := by
  induction l with
  | nil => simp [writeCell, readCell, shown]
  | cons e rest ih =>
    rw [writeCell]
    split_ifs with before same
    · exact if_pos rfl
    · exact if_pos rfl
    · exact (if_neg same).trans ih

/-- A write of one cell of a record changes that cell of its store and no other. -/
theorem Form.setCellOf_storedCell_of {c : Cell} (sound : fm.storeLaw = true ∨ c ≠ blankCell) (susp : Bool)
    (p : Nat) (saved : Bool) (q : Nat) :
    (fm.setCellOf susp p c).storedCell saved q =
      if q = p ∧ saved = fm.inSaved susp p then c else fm.storedCell saved q := by
  have written : ∀ l, (fm.storeLaw = true → storeWf l = true) →
      readCell (writeCell l p c) q = if q = p then c else readCell l q := fun l wf => by
    split_ifs with same
    · rw [same]
      exact sound.elim (fun canonical => readCell_writeCell_same p c (wf canonical))
        (readCell_writeCell_nonblank l p)
    · exact readCell_writeCell_other l c same
  cases place : fm.inSaved susp p with
  | false =>
    rw [Form.setCellOf_of_not_inSaved place]
    cases saved with
    | false =>
      simpa [Form.setScreen] using written _ fun canonical => (Form.storeLaw_iff.mp canonical).1
    | true => simp [Form.storedCell, Form.savedCell]
  | true =>
    obtain ⟨rfl, inside⟩ := Bool.and_eq_true_iff.mp place
    cases opened : fm.overlay with
    | none => rw [Form.inWindow_of_closed opened] at inside; cases inside
    | some o =>
      rw [Form.inWindow_of_overlay opened] at inside
      rw [Form.setCellOf_true_of_inWindow opened inside]
      cases saved with
      | false => simp
      | true =>
        simp only [Form.storedCell, Form.savedCell, opened, Option.map_some, Option.getD_some,
          if_true, and_true]
        exact written _ fun canonical => (Form.storeLaw_iff.mp canonical).2 o opened

theorem Form.setCellOf_storedCell (canonical : fm.storeLaw = true) (susp : Bool) (p : Nat) (c : Cell)
    (saved : Bool) (q : Nat) :
    (fm.setCellOf susp p c).storedCell saved q =
      if q = p ∧ saved = fm.inSaved susp p then c else fm.storedCell saved q :=
  Form.setCellOf_storedCell_of (.inl canonical) susp p saved q

theorem Form.inSaved_congr {fm' : Form} (window : fm'.window = fm.window) (susp : Bool) (p : Nat) :
    fm'.inSaved susp p = fm.inSaved susp p := by
  rw [Form.inSaved, Form.inSaved, Form.inWindow_eq_window, Form.inWindow_eq_window, window]

end

theorem Form.writeGlyphs_storeLaw {fm : Form} (canonical : fm.storeLaw = true) (susp : Bool)
    (style p : Nat) (glyphs : List Byte) :
    (fm.writeGlyphs susp style p glyphs).storeLaw = true := by
  induction glyphs generalizing fm p with
  | nil => exact canonical
  | cons g rest ih => exact ih (Form.setCellOf_storeLaw canonical susp p _) (p + 1)

/-- A run of glyphs written changes the cells of the run, each in its store, and no others. -/
theorem Form.writeGlyphs_storedCell_of {fm : Form} {glyphs : List Byte}
    (sound : fm.storeLaw = true ∨ ∀ g ∈ glyphs, g ≠ 0) (susp : Bool) (style p : Nat) (saved : Bool)
    (q : Nat) :
    (fm.writeGlyphs susp style p glyphs).storedCell saved q =
      if (p ≤ q ∧ q < p + glyphs.length) ∧ saved = fm.inSaved susp q then
        { glyph := glyphs.getD (q - p) 0, style := style }
      else fm.storedCell saved q := by
  induction glyphs generalizing fm p with
  | nil =>
    rw [Form.writeGlyphs, if_neg]
    simp
  | cons g rest ih =>
    have first : fm.storeLaw = true ∨ ({ glyph := g, style := style } : Cell) ≠ blankCell :=
      sound.imp_right fun shown blank => shown g (List.mem_cons_self ..) (congrArg Cell.glyph blank)
    have later : (fm.setCellOf susp p { glyph := g, style := style }).storeLaw = true ∨
        ∀ g ∈ rest, g ≠ 0 :=
      sound.imp (fun canonical => Form.setCellOf_storeLaw canonical susp p _)
        fun shown h listed => shown h (List.mem_cons_of_mem g listed)
    rw [Form.writeGlyphs, ih later, Form.setCellOf_storedCell_of first,
      Form.inSaved_congr (Form.setCellOf_window fm susp p _)]
    by_cases place : saved = fm.inSaved susp q
    · obtain later | first | outside :
          (p + 1 ≤ q ∧ q < p + 1 + rest.length) ∨ q = p ∨ (q < p ∨ p + 1 + rest.length ≤ q) := by
        omega
      · have shifted : q - p = q - (p + 1) + 1 := by omega
        rw [if_pos ⟨later, place⟩, if_pos ⟨by simp; omega, place⟩, shifted]
        rfl
      · subst first
        simp [place]
      · rw [if_neg (by omega), if_neg (by omega), if_neg (by simp; omega)]
    · have ne : ¬(q = p ∧ saved = fm.inSaved susp p) := by
        rintro ⟨rfl, same⟩
        exact place same
      simp [place, ne]

end Sys2Proof.Machine
end

section
/-! PROOFS. What a write of a record's content and a change of marks leave: the records found, the
content read back, and the laws that no such change can break. -/

namespace Sys2Proof.Machine

open Sys2Proof

/-! ## Equal parts give equal readings -/

section

variable {fm fm' : Form}

theorem Form.record_congr (active : fm'.active = fm.active) (suspended : fm'.suspended = fm.suspended)
    (t : Nat) : fm'.record t = fm.record t := by
  simp only [Form.record, Form.activeTag, Form.suspendedTag, active, suspended]

theorem Form.savedCell_congr (window : fm'.window = fm.window) {p : Nat}
    (cell : fm'.storedCell true p = fm.storedCell true p) : fm'.savedCell p = fm.savedCell p := by
  simp only [Form.storedCell, Form.savedCell, Form.window] at *
  cases opened : fm.overlay <;> cases opened' : fm'.overlay <;> simp_all

theorem Form.content_eq (fm : Form) (susp : Bool) (f : Field) :
    fm.content susp f = f.positions.map fun p => (fm.cellOf susp p).glyph := rfl

@[simp] theorem Form.length_content (fm : Form) (susp : Bool) (f : Field) :
    (fm.content susp f).length = f.length := by simp [Form.content_eq]

/-- Records of one extent have one content. -/
theorem Form.content_of_extent {f g : Field} (start : g.start = f.start)
    (length : g.length = f.length) (susp : Bool) : fm.content susp g = fm.content susp f := by
  simp only [Form.content, Field.positions, start, length]

theorem Form.content_congr {f : Field} {susp susp' : Bool}
    (cells : ∀ p, f.covers p = true → fm'.cellOf susp' p = fm.cellOf susp p) :
    fm'.content susp' f = fm.content susp f :=
  List.map_congr_left fun p covered => by rw [cells p (Field.mem_positions.mp covered)]

/-- A glyph of a content by its place in the field. -/
theorem Form.getD_content {f : Field} {p : Nat} (covered : f.covers p = true) (susp : Bool)
    (other : Byte) :
    (fm.content susp f).getD (p - f.start) other = (fm.cellOf susp p).glyph := by
  rw [Field.covers_iff] at covered
  have place : p - f.start < f.length := by omega
  rw [Form.content_eq, List.getD_eq_getElem _ _ (by simpa using place), List.getElem_map]
  simp only [Field.positions, List.getElem_map, List.getElem_range]
  rw [show f.start + (p - f.start) = p by omega]

/-- A content is told by its glyphs, place by place. -/
theorem Form.content_eq_of_getD {f : Field} {susp : Bool} {glyphs : List Byte}
    (length : glyphs.length = f.length)
    (cells : ∀ p, f.covers p = true → (fm.cellOf susp p).glyph = glyphs.getD (p - f.start) 0) :
    fm.content susp f = glyphs := by
  refine List.ext_getElem (by simp [length]) fun i inside inside' => ?_
  have covered : f.covers (f.start + i) = true := by
    rw [Field.covers_iff]
    simp at inside
    omega
  have place := cells _ covered
  rw [Nat.add_sub_cancel_left, List.getD_eq_getElem _ _ inside'] at place
  simpa [Form.content_eq, Field.positions] using place

end

/-! ## The part's own writes (R19) -/

section

variable {fm : Form}

@[simp] theorem Form.writeGlyphs_records (fm : Form) (b : Bool) (n p : Nat) (l : List Byte)
    (susp : Bool) : (fm.writeGlyphs b n p l).records susp = fm.records susp := by
  cases susp <;> simp

@[simp] theorem Form.writeGlyphs_record (fm : Form) (b : Bool) (n p : Nat) (l : List Byte)
    (t : Nat) : (fm.writeGlyphs b n p l).record t = fm.record t :=
  Form.record_congr (by simp) (by simp) t

/-- A write to the screen changes the screen cells alone. -/
theorem Form.writeGlyphs_false (fm : Form) (n p : Nat) (l : List Byte) :
    fm.writeGlyphs false n p l = { fm with cells := (fm.writeGlyphs false n p l).cells } := by
  induction l generalizing fm p with
  | nil => rfl
  | cons g rest ih =>
    rw [Form.writeGlyphs, ih]
    rfl

theorem Form.writeFrom_storedCell_of {glyphs : List Byte}
    (sound : fm.storeLaw = true ∨ ∀ g ∈ glyphs, g ≠ 0) (susp : Bool) (f : Field) (offset : Nat)
    (saved : Bool) (q : Nat) :
    (fm.writeFrom susp f offset glyphs).storedCell saved q =
      if (f.start + offset ≤ q ∧ q < f.start + offset + min (f.length - offset) glyphs.length) ∧
        saved = fm.inSaved susp q then
        { glyph := glyphs.getD (q - (f.start + offset)) 0, style := f.normal }
      else fm.storedCell saved q := by
  have cut : fm.storeLaw = true ∨ ∀ g ∈ glyphs.take (f.length - offset), g ≠ 0 :=
    sound.imp_right fun shown g listed => shown g (List.mem_of_mem_take listed)
  rw [Form.writeFrom, Form.writeGlyphs_storedCell_of cut, List.length_take]
  split_ifs with inside
  · have early : q - (f.start + offset) < f.length - offset := by omega
    rw [List.getD_eq_getElem?_getD, List.getElem?_take_of_lt early, List.getD_eq_getElem?_getD]
  · rfl

theorem Form.writeFrom_storedCell (canonical : fm.storeLaw = true) (susp : Bool) (f : Field)
    (offset : Nat) (glyphs : List Byte) (saved : Bool) (q : Nat) :
    (fm.writeFrom susp f offset glyphs).storedCell saved q =
      if (f.start + offset ≤ q ∧ q < f.start + offset + min (f.length - offset) glyphs.length) ∧
        saved = fm.inSaved susp q then
        { glyph := glyphs.getD (q - (f.start + offset)) 0, style := f.normal }
      else fm.storedCell saved q :=
  Form.writeFrom_storedCell_of (.inl canonical) susp f offset saved q

theorem Form.writeContent_storedCell_of {f : Field} {glyphs : List Byte}
    (sound : fm.storeLaw = true ∨ ∀ g ∈ glyphs, g ≠ 0) (susp : Bool) (whole : f.length ≤ glyphs.length)
    (saved : Bool) (q : Nat) :
    (fm.writeContent susp f glyphs).storedCell saved q =
      if f.covers q = true ∧ saved = fm.inSaved susp q then
        { glyph := glyphs.getD (q - f.start) 0, style := f.normal }
      else fm.storedCell saved q := by
  rw [Form.writeContent, Form.writeFrom_storedCell_of sound]
  refine if_congr ?_ rfl rfl
  rw [Field.covers_iff, Nat.add_zero, Nat.sub_zero, Nat.min_eq_left whole]

theorem Form.writeContent_storedCell (canonical : fm.storeLaw = true) (susp : Bool) {f : Field}
    {glyphs : List Byte} (whole : f.length ≤ glyphs.length) (saved : Bool) (q : Nat) :
    (fm.writeContent susp f glyphs).storedCell saved q =
      if f.covers q = true ∧ saved = fm.inSaved susp q then
        { glyph := glyphs.getD (q - f.start) 0, style := f.normal }
      else fm.storedCell saved q :=
  Form.writeContent_storedCell_of (.inl canonical) susp whole saved q

theorem Form.writeContent_cellOf (canonical : fm.storeLaw = true) (susp : Bool) {f : Field}
    {glyphs : List Byte} (whole : f.length ≤ glyphs.length) {q : Nat}
    (covered : f.covers q = true) :
    (fm.writeContent susp f glyphs).cellOf susp q =
      { glyph := glyphs.getD (q - f.start) 0, style := f.normal } := by
  have window : (fm.writeContent susp f glyphs).window = fm.window := by
    simp [Form.writeContent, Form.writeFrom]
  rw [Form.cellOf_eq_storedCell, Form.inSaved_congr window,
    Form.writeContent_storedCell canonical susp whole, if_pos ⟨covered, rfl⟩]

/-- A content written is read back (R18, R19). -/
theorem Form.content_writeContent (canonical : fm.storeLaw = true) (susp : Bool) {f : Field}
    {glyphs : List Byte} (whole : f.length ≤ glyphs.length) :
    (fm.writeContent susp f glyphs).content susp f = glyphs.take f.length := by
  refine Form.content_eq_of_getD (by simpa using whole) fun p covered => ?_
  rw [Form.writeContent_cellOf canonical susp whole covered]
  rw [Field.covers_iff] at covered
  have early : p - f.start < f.length := by omega
  rw [List.getD_eq_getElem?_getD, List.getD_eq_getElem?_getD, List.getElem?_take_of_lt early]

theorem Form.writeContent_storeLaw (canonical : fm.storeLaw = true) (susp : Bool) (f : Field)
    (glyphs : List Byte) : (fm.writeContent susp f glyphs).storeLaw = true :=
  Form.writeGlyphs_storeLaw canonical susp _ _ _

@[simp] theorem Form.writeContent_records (fm : Form) (b : Bool) (f : Field) (l : List Byte)
    (susp : Bool) : (fm.writeContent b f l).records susp = fm.records susp :=
  fm.writeGlyphs_records b _ _ _ susp
@[simp] theorem Form.writeContent_record (fm : Form) (b : Bool) (f : Field) (l : List Byte)
    (t : Nat) : (fm.writeContent b f l).record t = fm.record t :=
  fm.writeGlyphs_record b _ _ _ t
@[simp] theorem Form.writeContent_active (fm : Form) (b : Bool) (f : Field) (l : List Byte) :
    (fm.writeContent b f l).active = fm.active := fm.writeGlyphs_active b _ _ _
@[simp] theorem Form.writeContent_suspended (fm : Form) (b : Bool) (f : Field) (l : List Byte) :
    (fm.writeContent b f l).suspended = fm.suspended := fm.writeGlyphs_suspended b _ _ _
@[simp] theorem Form.writeContent_window (fm : Form) (b : Bool) (f : Field) (l : List Byte) :
    (fm.writeContent b f l).window = fm.window := fm.writeGlyphs_window b _ _ _
@[simp] theorem Form.writeContent_savedPlace (fm : Form) (b : Bool) (f : Field) (l : List Byte) :
    (fm.writeContent b f l).savedPlace = fm.savedPlace := fm.writeGlyphs_savedPlace b _ _ _
@[simp] theorem Form.writeContent_cursor (fm : Form) (b : Bool) (f : Field) (l : List Byte) :
    (fm.writeContent b f l).cursor = fm.cursor := fm.writeGlyphs_cursor b _ _ _
@[simp] theorem Form.writeContent_insert (fm : Form) (b : Bool) (f : Field) (l : List Byte) :
    (fm.writeContent b f l).insert = fm.insert := fm.writeGlyphs_insert b _ _ _
@[simp] theorem Form.writeContent_visit (fm : Form) (b : Bool) (f : Field) (l : List Byte) :
    (fm.writeContent b f l).visit = fm.visit := fm.writeGlyphs_visit b _ _ _
@[simp] theorem Form.writeContent_history (fm : Form) (b : Bool) (f : Field) (l : List Byte) :
    (fm.writeContent b f l).history = fm.history := fm.writeGlyphs_history b _ _ _

end

/-! ## Changes of records (R17, R20) -/

/-- The change leaves the tag and the extent of every record. -/
structure Field.KeepsPlace (g : Field → Field) : Prop where
  tag : ∀ f, (g f).tag = f.tag
  start : ∀ f, (g f).start = f.start
  length : ∀ f, (g f).length = f.length

theorem Field.KeepsPlace.covers {g : Field → Field} (keeps : Field.KeepsPlace g) (f : Field)
    (p : Nat) : (g f).covers p = f.covers p := by
  simp only [Field.covers, keeps.start, keeps.length]

/-- A change that is made to the record of one tag. -/
theorem Field.KeepsPlace.ofTag {g : Field → Field} (keeps : Field.KeepsPlace g) (t : Nat) :
    Field.KeepsPlace fun f => if f.tag = t then g f else f where
  tag f := by split_ifs; exacts [keeps.tag f, rfl]
  start f := by split_ifs; exacts [keeps.start f, rfl]
  length f := by split_ifs; exacts [keeps.length f, rfl]

section

variable {fm : Form} {g : Field → Field}

@[simp] theorem Form.mapRecords_records (fm : Form) (g : Field → Field) (susp : Bool) :
    (fm.mapRecords g).records susp = (fm.records susp).map g := by
  cases susp <;> simp

theorem find?_map_of_tag (keeps : Field.KeepsPlace g) (l : List Field) (t : Nat) :
    (l.map g).find? (·.tag == t) = (l.find? (·.tag == t)).map g := by
  rw [List.find?_map]
  simp only [Function.comp_def, keeps.tag]

theorem Form.mapRecords_record (keeps : Field.KeepsPlace g) (t : Nat) :
    (fm.mapRecords g).record t = (fm.record t).map fun r => (g r.1, r.2) := by
  simp only [Form.record, Form.activeTag, Form.suspendedTag, Form.mapRecords_active,
    Form.mapRecords_suspended, find?_map_of_tag keeps]
  cases fm.active.find? (·.tag == t) with
  | some f => rfl
  | none => cases fm.suspended.find? (·.tag == t) <;> rfl

theorem Form.mapRecords_fieldAt (keeps : Field.KeepsPlace g) (p : Nat) :
    (fm.mapRecords g).fieldAt p = (fm.fieldAt p).map g := by
  simp only [Form.fieldAt, Form.mapRecords_active, List.find?_map, Function.comp_def, keeps.covers]

theorem Form.mapTag_record (keeps : Field.KeepsPlace g) (t u : Nat) :
    (fm.mapTag t g).record u =
      if u = t then (fm.record u).map fun r => (g r.1, r.2) else fm.record u := by
  rw [Form.mapTag, Form.mapRecords_record (keeps.ofTag t)]
  cases held : fm.record u with
  | none => simp
  | some r =>
    have tag : r.1.tag = u := by
      unfold Form.record at held
      split at held
      · next f found =>
        cases held
        simpa using List.find?_some found
      · obtain ⟨f, found, rfl⟩ := Option.map_eq_some_iff.mp held
        simpa using List.find?_some found
    simp only [Option.map_some, tag]
    split_ifs <;> rfl

@[simp] theorem Form.mapRecords_storedCell (fm : Form) (g : Field → Field) (saved : Bool) (p : Nat) :
    (fm.mapRecords g).storedCell saved p = fm.storedCell saved p := by
  simp [Form.storedCell]

@[simp] theorem Form.mapRecords_inSaved (fm : Form) (g : Field → Field) (susp : Bool) (p : Nat) :
    (fm.mapRecords g).inSaved susp p = fm.inSaved susp p := Form.inSaved_congr (by simp) susp p

@[simp] theorem Form.mapRecords_inWindow (fm : Form) (g : Field → Field) (p : Nat) :
    (fm.mapRecords g).inWindow p = fm.inWindow p := by
  rw [Form.inWindow_eq_window, Form.inWindow_eq_window, Form.mapRecords_window]

@[simp] theorem Form.mapRecords_cellOf (fm : Form) (g : Field → Field) (susp : Bool) (p : Nat) :
    (fm.mapRecords g).cellOf susp p = fm.cellOf susp p := by
  rw [Form.cellOf_eq_storedCell, Form.cellOf_eq_storedCell, Form.mapRecords_inSaved,
    Form.mapRecords_storedCell]

@[simp] theorem Form.mapRecords_content (fm : Form) (g : Field → Field) (susp : Bool) (f : Field) :
    (fm.mapRecords g).content susp f = fm.content susp f := by
  simp [Form.content_eq]

@[simp] theorem Form.mapRecords_storeLaw (fm : Form) (g : Field → Field) :
    (fm.mapRecords g).storeLaw = fm.storeLaw := by
  unfold Form.mapRecords Form.mapSuspended Form.storeLaw
  cases fm.overlay <;> rfl

/-! ## The law of the field table holds of every form with the same extents -/

theorem Field.KeepsPlace.placed (keeps : Field.KeepsPlace g) (f : Field) :
    (g f).placed = f.placed := by simp only [Field.placed, keeps.start, keeps.length]

theorem Field.KeepsPlace.precedes (keeps : Field.KeepsPlace g) (f h : Field) :
    (g f).precedes (g h) = f.precedes h := by simp only [Field.precedes, keeps.start, keeps.length]

theorem Field.KeepsPlace.apart (keeps : Field.KeepsPlace g) (f h : Field) :
    (g f).apart (g h) = f.apart h := by simp only [Field.apart, keeps.precedes]

theorem Field.KeepsPlace.positions (keeps : Field.KeepsPlace g) (f : Field) :
    (g f).positions = f.positions := by simp only [Field.positions, keeps.start, keeps.length]

theorem Field.KeepsPlace.holds (keeps : Field.KeepsPlace g) (w : Window) (f : Field) :
    w.holds (g f) = w.holds f := by simp only [Window.holds, keeps.positions]

theorem Field.KeepsPlace.touches (keeps : Field.KeepsPlace g) (w : Window) (f : Field) :
    w.touches (g f) = w.touches f := by simp only [Window.touches, keeps.positions]

theorem Field.KeepsPlace.inOrder (keeps : Field.KeepsPlace g) (l : List Field) :
    inOrder (l.map g) = inOrder l := by
  rw [Bool.eq_iff_iff, inOrder_iff, inOrder_iff, List.pairwise_map]
  simp only [keeps.precedes]

theorem Field.KeepsPlace.tags (keeps : Field.KeepsPlace g) (l : List Field) :
    (l.map g).map (·.tag) = l.map (·.tag) := by
  simp only [List.map_map, Function.comp_def, keeps.tag]

theorem Form.mapRecords_overlay (fm : Form) (g : Field → Field) :
    (fm.mapRecords g).overlay = fm.overlay.map fun o => { o with suspended := o.suspended.map g } :=
  rfl

theorem Form.mapRecords_windowLaw (keeps : Field.KeepsPlace g) :
    (fm.mapRecords g).windowLaw = fm.windowLaw := by
  unfold Form.windowLaw
  rw [Form.mapRecords_overlay, Form.mapRecords_active]
  cases fm.overlay with
  | none => rfl
  | some o =>
    simp only [Option.map_some, List.all_map, Function.comp_def, keeps.holds, keeps.touches,
      keeps.apart]

theorem Form.mapRecords_lawful (keeps : Field.KeepsPlace g) :
    (fm.mapRecords g).lawful = fm.lawful := by
  simp only [Form.lawful, Form.mapRecords_windowLaw keeps, Form.mapRecords_active,
    Form.mapRecords_suspended, ← List.map_append, List.all_map, Function.comp_def, keeps.placed,
    keeps.inOrder, tagsDiffer, keeps.tags, List.length_map]

/-- The law of the field table speaks of the records and the window alone. -/
theorem Form.lawful_congr {fm' : Form} (active : fm'.active = fm.active)
    (suspended : fm'.suspended = fm.suspended) (window : fm'.window = fm.window) :
    fm'.lawful = fm.lawful := by
  have law : fm'.windowLaw = fm.windowLaw := by
    unfold Form.windowLaw
    unfold Form.suspended at suspended
    unfold Form.window at window
    rw [active]
    cases opened : fm.overlay <;> cases opened' : fm'.overlay <;> simp_all
  simp only [Form.lawful, active, suspended, law]

theorem Form.writeGlyphs_lawful (fm : Form) (susp : Bool) (n p : Nat) (l : List Byte) :
    (fm.writeGlyphs susp n p l).lawful = fm.lawful :=
  Form.lawful_congr (by simp) (by simp) (by simp)

theorem Form.writeContent_lawful (fm : Form) (susp : Bool) (f : Field) (l : List Byte) :
    (fm.writeContent susp f l).lawful = fm.lawful :=
  fm.writeGlyphs_lawful susp _ _ _

end

end Sys2Proof.Machine
end

section
/-! PROOFS. Tallies (R80 to R82): what a source gives, the recomputation of one tally as a write of its
content and a setting of its marks, the recomputation of all those concerned, and the statement. -/

namespace Sys2Proof.Machine

open Sys2Proof

/-! ## The examination of a source (R80) -/

section

variable {fm : Form} {t : Nat}

theorem Form.readSource_of_unheld (unheld : fm.record t = none) : fm.readSource t = .fault := by
  rw [Form.readSource, unheld]

variable {f : Field} {susp : Bool}

theorem Form.readSource_of_not_numeric (held : fm.record t = some (f, susp))
    (other : ∀ n, f.cls ≠ .numeric n) : fm.readSource t = .fault := by
  rw [Form.readSource, held]
  dsimp only
  split
  next n numeric => exact absurd numeric (other n)
  next => rfl

theorem Form.readSource_of_numeric (held : fm.record t = some (f, susp)) {n : NumPart}
    (numeric : f.cls = .numeric n) : fm.readSource t =
      if (f.kind = .entry ∨ f.kind = .live) ∧ f.errorMark = none then
        match parseNumber n f.length (fm.content susp f) with
        | .empty => .empty
        | .value v => .counted (v * 10 ^ (3 - n.scale))
        | .format | .range => .fault
      else .fault := by
  rw [Form.readSource, held]
  dsimp only
  rw [numeric] <;> rfl

/-- Equal records with equal contents give equal readings. -/
theorem Form.readSource_congr {fm' : Form} (record : fm'.record t = fm.record t)
    (content : ∀ f susp, fm.record t = some (f, susp) → f.kind ≠ .tally →
      fm'.content susp f = fm.content susp f) : fm'.readSource t = fm.readSource t := by
  cases held : fm.record t with
  | none => rw [Form.readSource_of_unheld held, Form.readSource_of_unheld (record.trans held)]
  | some r =>
    obtain ⟨f, susp⟩ := r
    cases numeric : f.cls with
    | numeric n =>
      rw [Form.readSource_of_numeric held numeric,
        Form.readSource_of_numeric (record.trans held) numeric]
      split_ifs with counts
      · rw [content f susp held]
        obtain entry | live := counts.1
        · rw [entry]; decide
        · rw [live]; decide
      · rfl
    | none | alpha | code rule =>
      have other : ∀ n, f.cls ≠ .numeric n := by simp [numeric]
      rw [Form.readSource_of_not_numeric held other,
        Form.readSource_of_not_numeric (record.trans held) other]

end

/-! ## The arithmetic of a tally (R81) -/

/-- The sum at scale 3, source by source (R81 step 1). -/
theorem Form.tallySum_eq_sum (fm : Form) (tags : List Nat) :
    fm.tallySum tags = (tags.map fun i =>
      match fm.readSource i with
      | .counted v => v
      | .fault | .empty => 0).sum := by
  induction tags with
  | nil => rfl
  | cons t rest ih => rw [Form.tallySum, ih, List.map_cons, List.sum_cons] <;> rfl

theorem Form.tallySum_congr {fm fm' : Form} (readings : ∀ i, fm'.readSource i = fm.readSource i)
    (tags : List Nat) : fm'.tallySum tags = fm.tallySum tags := by
  simp only [Form.tallySum_eq_sum, readings]

/-- Rounding goes to the multiple of the unit below the magnitude, or one above it from half a unit on
(R81 step 2). -/
theorem roundHalfAway_mul (x : Int) (d : Nat) :
    let magnitude : Nat :=
      x.natAbs / d * d + if d ≤ 2 * (x.natAbs % d) then d else 0
    roundHalfAway x d * d = if x < 0 then -(magnitude : Int) else magnitude := by
  unfold roundHalfAway
  split_ifs <;> push_cast <;> ring

/-- Half away from zero is never further off than half a unit, and goes outwards at a tie (R81). -/
theorem roundHalfAway_off (x : Int) {d : Nat} (unit : 0 < d) :
    let off := (x - roundHalfAway x d * d).natAbs
    2 * off ≤ d ∧ (2 * off = d → x.natAbs ≤ (roundHalfAway x d * d).natAbs) := by
  have division : x.natAbs / d * d + x.natAbs % d = x.natAbs := Nat.div_add_mod' _ _
  have small : x.natAbs % d < d := Nat.mod_lt _ unit
  rw [roundHalfAway_mul]
  generalize x.natAbs / d * d = below at division
  generalize x.natAbs % d = rest at division small
  dsimp only
  split_ifs <;> omega

/-! ## One tally recomputed (R80, R81) -/

/-- The content that a recomputed tally shows: null without a source list, and otherwise the clamped sum
in canonical form. -/
def Form.tallyText (fm : Form) (f : Field) (n : NumPart) : List Byte :=
  match f.sources with
  | none => List.replicate f.length nullGlyph
  | some tags => canonical n f.length (clampTo n (fm.tallyResult n tags))

/-- The marks that a recomputed tally shows. -/
def Form.tallyMarked (fm : Form) (f : Field) (n : NumPart) (g : Field) : Field :=
  match f.sources with
  | none => { g with incomplete := true, saturated := false }
  | some tags =>
    { g with
      incomplete := fm.tallyIncomplete tags
      saturated := fm.tallyResult n tags ≠ clampTo n (fm.tallyResult n tags) }

theorem Form.tallyMarked_keepsPlace (fm : Form) (f : Field) (n : NumPart) :
    Field.KeepsPlace (fm.tallyMarked f n) := by
  unfold Form.tallyMarked
  cases f.sources <;> exact ⟨fun _ => rfl, fun _ => rfl, fun _ => rfl⟩

/-- A canonical form is never shorter than its field (R69). -/
theorem length_le_canonical (n : NumPart) (length : Nat) (v : Int) :
    length ≤ (canonical n length v).length := by
  simp only [canonical, List.length_append, List.length_replicate]
  omega

theorem Form.length_le_tallyText (fm : Form) (f : Field) (n : NumPart) :
    f.length ≤ (fm.tallyText f n).length := by
  unfold Form.tallyText
  cases f.sources with
  | none => simp
  | some tags => exact length_le_canonical n f.length _

section

variable {fm : Form} {t : Nat} {f : Field} {susp : Bool} {n : NumPart}

/-- A recomputed tally is written and marked (R80, R81). -/
theorem Form.recomputeTally_of (held : fm.record t = some (f, susp)) (isTally : f.kind = .tally)
    (numeric : f.cls = .numeric n) : fm.recomputeTally t =
      (fm.writeContent susp f (fm.tallyText f n)).mapTag t (fm.tallyMarked f n) := by
  unfold Form.recomputeTally Form.tallyText Form.tallyMarked
  rw [held]
  dsimp only
  rw [isTally, numeric]
  cases f.sources <;> rfl

/-- What is no numeric tally is not recomputed. -/
theorem Form.recomputeTally_of_not
    (other : ∀ f susp n, fm.record t = some (f, susp) → f.kind = .tally → f.cls ≠ .numeric n) :
    fm.recomputeTally t = fm := by
  unfold Form.recomputeTally
  split
  next => rfl
  next f susp held =>
    split
    next n isTally numeric => exact absurd numeric (other f susp n held isTally)
    next => rfl

/-- Recomputing a tally keeps the canonical form of the stores. -/
theorem Form.recomputeTally_storeLaw (canonical : fm.storeLaw = true) (t : Nat) :
    (fm.recomputeTally t).storeLaw = true := by
  by_cases due : ∃ f susp n, fm.record t = some (f, susp) ∧ f.kind = .tally ∧ f.cls = .numeric n
  · obtain ⟨f, susp, n, held, isTally, numeric⟩ := due
    rw [Form.recomputeTally_of held isTally numeric, Form.mapTag, Form.mapRecords_storeLaw]
    exact Form.writeContent_storeLaw canonical susp f _
  · rw [Form.recomputeTally_of_not fun f susp n held isTally numeric =>
      due ⟨f, susp, n, held, isTally, numeric⟩]
    exact canonical

theorem Form.recomputeTally_lawful (fm : Form) (t : Nat) :
    (fm.recomputeTally t).lawful = fm.lawful := by
  by_cases due : ∃ f susp n, fm.record t = some (f, susp) ∧ f.kind = .tally ∧ f.cls = .numeric n
  · obtain ⟨f, susp, n, held, isTally, numeric⟩ := due
    rw [Form.recomputeTally_of held isTally numeric, Form.mapTag,
      Form.mapRecords_lawful ((fm.tallyMarked_keepsPlace f n).ofTag t), Form.writeContent_lawful]
  · rw [Form.recomputeTally_of_not fun f susp n held isTally numeric =>
      due ⟨f, susp, n, held, isTally, numeric⟩]

@[simp] theorem Form.recomputeTally_inSaved (fm : Form) (t : Nat) (susp : Bool) (p : Nat) :
    (fm.recomputeTally t).inSaved susp p = fm.inSaved susp p := Form.inSaved_congr (by simp) susp p

/-- The recomputed tally's record takes its marks; no other record changes. -/
theorem Form.recomputeTally_record (held : fm.record t = some (f, susp)) (isTally : f.kind = .tally)
    (numeric : f.cls = .numeric n) (u : Nat) : (fm.recomputeTally t).record u =
      if u = t then some (fm.tallyMarked f n f, susp) else fm.record u := by
  rw [Form.recomputeTally_of held isTally numeric,
    Form.mapTag_record (fm.tallyMarked_keepsPlace f n), Form.writeContent_record]
  split_ifs with same
  · rw [same, held, Option.map_some]
  · rfl

theorem Form.recomputeTally_record_of_ne {u : Nat} (ne : u ≠ t) :
    (fm.recomputeTally t).record u = fm.record u := by
  by_cases due : ∃ f susp n, fm.record t = some (f, susp) ∧ f.kind = .tally ∧ f.cls = .numeric n
  · obtain ⟨f, susp, n, held, isTally, numeric⟩ := due
    rw [Form.recomputeTally_record held isTally numeric, if_neg ne]
  · rw [Form.recomputeTally_of_not fun f susp n held isTally numeric =>
      due ⟨f, susp, n, held, isTally, numeric⟩]

/-- The cells of the recomputed tally show its text; no other cell changes, on the screen or saved. -/
theorem Form.recomputeTally_storedCell (canonical : fm.storeLaw = true)
    (held : fm.record t = some (f, susp)) (isTally : f.kind = .tally) (numeric : f.cls = .numeric n)
    (saved : Bool) (q : Nat) : (fm.recomputeTally t).storedCell saved q =
      if f.covers q = true ∧ saved = fm.inSaved susp q then
        { glyph := (fm.tallyText f n).getD (q - f.start) 0, style := f.normal }
      else fm.storedCell saved q := by
  rw [Form.recomputeTally_of held isTally numeric, Form.mapTag, Form.mapRecords_storedCell,
    Form.writeContent_storedCell canonical susp (fm.length_le_tallyText f n)]

/-- Only cells of the tally change when it is recomputed. -/
theorem Form.recomputeTally_storedCell_of_not (canonical : fm.storeLaw = true) {saved : Bool} {q : Nat}
    (outside : ∀ f susp, fm.record t = some (f, susp) → f.kind = .tally → f.covers q = true →
      saved ≠ fm.inSaved susp q) :
    (fm.recomputeTally t).storedCell saved q = fm.storedCell saved q := by
  by_cases due : ∃ f susp n, fm.record t = some (f, susp) ∧ f.kind = .tally ∧ f.cls = .numeric n
  · obtain ⟨f, susp, n, held, isTally, numeric⟩ := due
    rw [Form.recomputeTally_storedCell canonical held isTally numeric, if_neg]
    exact fun inside => outside f susp held isTally inside.1 inside.2
  · rw [Form.recomputeTally_of_not fun f susp n held isTally numeric =>
      due ⟨f, susp, n, held, isTally, numeric⟩]

/-- The cells of another record stand when a tally is recomputed. -/
theorem Form.recomputeTally_cellOf_of_ne (law : fm.Lawful) (canonical : fm.storeLaw = true)
    (held : fm.record t = some (f, susp)) {u : Nat} (ne : u ≠ t) {q : Nat}
    (covered : f.covers q = true) :
    (fm.recomputeTally u).cellOf susp q = fm.cellOf susp q := by
  rw [Form.cellOf_eq_storedCell, Form.cellOf_eq_storedCell, Form.recomputeTally_inSaved]
  refine Form.recomputeTally_storedCell_of_not canonical fun g susp' held' _ covered' => ?_
  obtain ⟨inTable, rfl⟩ := law.record_iff.mp held
  obtain ⟨inTable', rfl⟩ := law.record_iff.mp held'
  exact law.inSaved_ne inTable inTable' ne.symm covered covered'

/-- No source reads otherwise after a tally has been recomputed: a tally is no source of a tally (R80). -/
theorem Form.recomputeTally_readSource (law : fm.Lawful) (canonical : fm.storeLaw = true) (u i : Nat) :
    (fm.recomputeTally u).readSource i = fm.readSource i := by
  by_cases due : ∃ f susp n, fm.record u = some (f, susp) ∧ f.kind = .tally ∧ f.cls = .numeric n
  · obtain ⟨f, susp, n, held, isTally, numeric⟩ := due
    by_cases same : i = u
    · subst same
      have marked : (fm.tallyMarked f n f).kind = f.kind ∧ (fm.tallyMarked f n f).cls = f.cls := by
        unfold Form.tallyMarked
        cases f.sources <;> exact ⟨rfl, rfl⟩
      have after := Form.recomputeTally_record held isTally numeric i
      rw [if_pos rfl] at after
      rw [Form.readSource_of_numeric after (marked.2.trans numeric),
        Form.readSource_of_numeric held numeric, marked.1, isTally]
      simp
    · refine Form.readSource_congr (Form.recomputeTally_record_of_ne same) fun g susp' held' _ => ?_
      exact Form.content_congr fun q covered =>
        Form.recomputeTally_cellOf_of_ne law canonical held' (Ne.symm same) covered
  · rw [Form.recomputeTally_of_not fun f susp n held isTally numeric =>
      due ⟨f, susp, n, held, isTally, numeric⟩]

end

/-! ## Several tallies recomputed (R82, log 19) -/

section

variable {fm fm' : Form}

theorem Form.tallyResult_congr (readings : ∀ i, fm'.readSource i = fm.readSource i) (n : NumPart)
    (tags : List Nat) : fm'.tallyResult n tags = fm.tallyResult n tags := by
  rw [Form.tallyResult, Form.tallyResult, Form.tallySum_congr readings]

theorem Form.tallyText_congr (readings : ∀ i, fm'.readSource i = fm.readSource i) (f : Field)
    (n : NumPart) : fm'.tallyText f n = fm.tallyText f n := by
  unfold Form.tallyText
  simp only [Form.tallyResult_congr readings]

theorem Form.tallyMarked_congr (readings : ∀ i, fm'.readSource i = fm.readSource i) (f : Field)
    (n : NumPart) : fm'.tallyMarked f n = fm.tallyMarked f n := by
  unfold Form.tallyMarked
  simp only [Form.tallyResult_congr readings, Form.tallyIncomplete, readings]

/-- What a tally shows when it is recomputed is told by its record, its own cells and the readings of its
sources. -/
theorem Form.recomputeTally_agrees (canonical : fm.storeLaw = true) (canonical' : fm'.storeLaw = true)
    (readings : ∀ i, fm'.readSource i = fm.readSource i) {t : Nat}
    (record : fm'.record t = fm.record t) :
    (fm'.recomputeTally t).record t = (fm.recomputeTally t).record t ∧
    ∀ f susp, fm.record t = some (f, susp) → ∀ q, f.covers q = true →
      fm'.cellOf susp q = fm.cellOf susp q →
      (fm'.recomputeTally t).cellOf susp q = (fm.recomputeTally t).cellOf susp q := by
  by_cases due : ∃ f susp n, fm.record t = some (f, susp) ∧ f.kind = .tally ∧ f.cls = .numeric n
  · obtain ⟨f, susp, n, held, isTally, numeric⟩ := due
    have held' := record.trans held
    refine ⟨?_, fun g susp' heldG q covered _ => ?_⟩
    · rw [Form.recomputeTally_record held isTally numeric,
        Form.recomputeTally_record held' isTally numeric, Form.tallyMarked_congr readings,
        if_pos rfl, if_pos rfl]
    · cases held.symm.trans heldG
      rw [Form.cellOf_eq_storedCell, Form.cellOf_eq_storedCell, Form.recomputeTally_inSaved,
        Form.recomputeTally_inSaved, Form.recomputeTally_storedCell canonical held isTally numeric,
        Form.recomputeTally_storedCell canonical' held' isTally numeric,
        if_pos ⟨covered, rfl⟩, if_pos ⟨covered, rfl⟩, Form.tallyText_congr readings]
  · have other : ∀ f susp n, fm.record t = some (f, susp) → f.kind = .tally → f.cls ≠ .numeric n :=
      fun f susp n held isTally numeric => due ⟨f, susp, n, held, isTally, numeric⟩
    rw [Form.recomputeTally_of_not other, Form.recomputeTally_of_not (by rwa [record])]
    exact ⟨record, fun _ _ _ _ _ cells => cells⟩

/-- Recomputing another tally first makes no difference. -/
theorem Form.recomputeTally_recomputeTally (law : fm.Lawful) (canonical : fm.storeLaw = true)
    {t u : Nat} (ne : t ≠ u) :
    ((fm.recomputeTally u).recomputeTally t).record t = (fm.recomputeTally t).record t ∧
    ∀ f susp, fm.record t = some (f, susp) → ∀ q, f.covers q = true →
      ((fm.recomputeTally u).recomputeTally t).cellOf susp q =
        (fm.recomputeTally t).cellOf susp q := by
  have agrees := Form.recomputeTally_agrees canonical (Form.recomputeTally_storeLaw canonical u)
    (Form.recomputeTally_readSource law canonical u)
    (Form.recomputeTally_record_of_ne ne)
  exact ⟨agrees.1, fun f susp held q covered => agrees.2 f susp held q covered
    (Form.recomputeTally_cellOf_of_ne law canonical held ne.symm covered)⟩

/-- Tallies recomputed one after another: each as if it were the only one, and nothing else. -/
theorem Form.foldl_recomputeTally (law : fm.Lawful) (canonical : fm.storeLaw = true) {l : List Nat}
    (once : l.Nodup) :
    let after := l.foldl Form.recomputeTally fm
    (∀ t, after.record t = if t ∈ l then (fm.recomputeTally t).record t else fm.record t) ∧
    (∀ t f susp, fm.record t = some (f, susp) → ∀ q, f.covers q = true →
      after.cellOf susp q =
        if t ∈ l then (fm.recomputeTally t).cellOf susp q else fm.cellOf susp q) ∧
    (∀ saved q, (∀ t ∈ l, ∀ f susp, fm.record t = some (f, susp) → f.kind = .tally →
        f.covers q = true → saved ≠ fm.inSaved susp q) →
      after.storedCell saved q = fm.storedCell saved q) := by
  induction l generalizing fm with
  | nil => exact ⟨fun t => by simp, fun t f susp _ q _ => by simp, fun saved q _ => rfl⟩
  | cons u rest ih =>
    obtain ⟨notLater, restOnce⟩ := List.nodup_cons.mp once
    have law' : (fm.recomputeTally u).Lawful := by
      rwa [← Form.lawful_iff, Form.recomputeTally_lawful, Form.lawful_iff]
    obtain ⟨record, cells, others⟩ :=
      ih law' (Form.recomputeTally_storeLaw canonical u) restOnce
    intro after
    refine ⟨fun t => ?record, fun t f susp held q covered => ?cells,
      fun saved q outside => ?others⟩
    case record =>
      rw [show after.record t = _ from record t]
      by_cases same : t = u
      · subst same
        simp [notLater]
      · simp only [List.mem_cons, same, false_or]
        split_ifs
        · exact (Form.recomputeTally_recomputeTally law canonical same).1
        · exact Form.recomputeTally_record_of_ne same
    case cells =>
      by_cases same : t = u
      · subst same
        rw [if_pos List.mem_cons_self, Form.cellOf_eq_storedCell, Form.cellOf_eq_storedCell]
        have window : after.window = (fm.recomputeTally t).window :=
          List.foldlRecOn (motive := fun g => g.window = (fm.recomputeTally t).window) rest _ rfl
            fun g ih i _ => (Form.recomputeTally_window g i).trans ih
        rw [Form.inSaved_congr window]
        refine others _ q fun u later g susp' held' _ covered' => ?_
        have ne : u ≠ t := fun same => notLater (same ▸ later)
        rw [Form.recomputeTally_record_of_ne ne] at held'
        rw [Form.recomputeTally_inSaved, Form.recomputeTally_inSaved]
        obtain ⟨inTable, rfl⟩ := law.record_iff.mp held
        obtain ⟨inTable', rfl⟩ := law.record_iff.mp held'
        exact law.inSaved_ne inTable inTable' ne.symm covered covered'
      · have held' := (Form.recomputeTally_record_of_ne same).trans held
        rw [show after.cellOf susp q = _ from cells t f susp held' q covered]
        simp only [List.mem_cons, same, false_or]
        split_ifs
        · exact (Form.recomputeTally_recomputeTally law canonical same).2 f susp held q covered
        · exact Form.recomputeTally_cellOf_of_ne law canonical held (Ne.symm same) covered
    case others =>
      have first : (fm.recomputeTally u).storedCell saved q = fm.storedCell saved q :=
        Form.recomputeTally_storedCell_of_not canonical fun f susp held =>
          outside u List.mem_cons_self f susp held
      rw [← first]
      refine others saved q fun t later f susp held isTally covered => ?_
      rw [Form.recomputeTally_inSaved]
      have ne : t ≠ u := fun same => notLater (same ▸ later)
      rw [Form.recomputeTally_record_of_ne ne] at held
      exact outside t (List.mem_cons_of_mem u later) f susp held isTally covered

/-! ## The tallies that name a changed field (R82) -/

/-- The record is a tally whose source list names one of the tags. -/
theorem Field.talliesAny_iff {f : Field} {tags : List Nat} : f.talliesAny tags = true ↔
    f.kind = .tally ∧ ∃ l, f.sources = some l ∧ ∃ t ∈ l, t ∈ tags := by
  unfold Field.talliesAny
  cases f.sources with
  | none => simp
  | some l => simp

/-- The tags of the tallies that name one of some tags. -/
def Form.naming (fm : Form) (tags : List Nat) : List Nat :=
  ((fm.active ++ fm.suspended).filter (·.talliesAny tags)).map (·.tag)

theorem Form.recomputeNaming_eq (fm : Form) (tags : List Nat) :
    fm.recomputeNaming tags = (fm.naming tags).foldl Form.recomputeTally fm := rfl

theorem Form.mem_records_iff {f : Field} :
    f ∈ fm.active ++ fm.suspended ↔ ∃ susp, f ∈ fm.records susp := by
  simp

theorem Form.Lawful.naming_nodup (law : fm.Lawful) (tags : List Nat) : (fm.naming tags).Nodup :=
  law.tags.sublist (List.filter_sublist.map _)

theorem Form.Lawful.mem_naming_iff (law : fm.Lawful) {tags : List Nat} {t : Nat} :
    t ∈ fm.naming tags ↔
      ∃ f susp, fm.record t = some (f, susp) ∧ f.talliesAny tags = true := by
  simp only [Form.naming, List.mem_map, List.mem_filter, Form.mem_records_iff, law.record_iff]
  constructor
  · rintro ⟨f, ⟨⟨susp, held⟩, names⟩, rfl⟩
    exact ⟨f, susp, ⟨held, rfl⟩, names⟩
  · rintro ⟨f, susp, ⟨held, rfl⟩, names⟩
    exact ⟨f, ⟨⟨susp, held⟩, names⟩, rfl⟩

@[simp] theorem Form.recomputeNaming_inSaved (fm : Form) (tags : List Nat) (susp : Bool) (p : Nat) :
    (fm.recomputeNaming tags).inSaved susp p = fm.inSaved susp p :=
  Form.inSaved_congr (by simp) susp p

/-- Each tally that names a changed field is recomputed; every other record stands (R82). -/
theorem Form.recomputeNaming_record (law : fm.Lawful) (canonical : fm.storeLaw = true)
    (tags : List Nat) {t : Nat} {f : Field} {susp : Bool} (held : fm.record t = some (f, susp)) :
    (fm.recomputeNaming tags).record t =
      if f.talliesAny tags = true then (fm.recomputeTally t).record t else some (f, susp) := by
  rw [Form.recomputeNaming_eq,
    (Form.foldl_recomputeTally law canonical (law.naming_nodup tags)).1 t, held]
  refine if_congr ?_ rfl rfl
  rw [law.mem_naming_iff, held]
  simp

theorem Form.recomputeNaming_record_of_unheld (law : fm.Lawful) (canonical : fm.storeLaw = true)
    (tags : List Nat) {t : Nat} (unheld : fm.record t = none) :
    (fm.recomputeNaming tags).record t = none := by
  rw [Form.recomputeNaming_eq,
    (Form.foldl_recomputeTally law canonical (law.naming_nodup tags)).1 t, if_neg, unheld]
  rw [law.mem_naming_iff, unheld]
  simp

theorem Form.recomputeNaming_cellOf (law : fm.Lawful) (canonical : fm.storeLaw = true)
    (tags : List Nat) {t : Nat} {f : Field} {susp : Bool} (held : fm.record t = some (f, susp))
    {q : Nat} (covered : f.covers q = true) : (fm.recomputeNaming tags).cellOf susp q =
      if f.talliesAny tags = true then (fm.recomputeTally t).cellOf susp q
      else fm.cellOf susp q := by
  rw [Form.recomputeNaming_eq,
    (Form.foldl_recomputeTally law canonical (law.naming_nodup tags)).2.1 t f susp held q covered]
  refine if_congr ?_ rfl rfl
  rw [law.mem_naming_iff, held]
  simp

theorem Form.recomputeNaming_storedCell (law : fm.Lawful) (canonical : fm.storeLaw = true)
    (tags : List Nat) {saved : Bool} {q : Nat}
    (outside : ∀ susp, ∀ f ∈ fm.records susp, f.talliesAny tags = true → f.covers q = true →
      saved ≠ fm.inSaved susp q) :
    (fm.recomputeNaming tags).storedCell saved q = fm.storedCell saved q := by
  rw [Form.recomputeNaming_eq]
  refine (Form.foldl_recomputeTally law canonical (law.naming_nodup tags)).2.2 saved q
    fun t named f susp held _ covered => ?_
  obtain ⟨g, susp', held', names⟩ := law.mem_naming_iff.mp named
  cases held.symm.trans held'
  exact outside susp f (law.record_iff.mp held).1 names covered

end

/-! ## The statement -/

/-- Settles O25: a reading by the cases of its record, the rounding, one tally by its write and its marks,
and several of them one after another. -/
theorem tallyRecomputed : Obligations.TallyRecomputed := by
  refine ⟨fun fm t => ⟨Form.readSource_of_unheld, fun f susp held => ⟨?fault, ?numeric⟩⟩,
    fun x d unit => roundHalfAway_off x unit, ?one, ?several⟩
  case fault =>
    rintro (other | unfit | marked)
    · exact Form.readSource_of_not_numeric held other
    all_goals
      cases numeric : f.cls with
      | numeric n =>
        rw [Form.readSource_of_numeric held numeric, if_neg (by tauto)]
      | none | alpha | code rule => exact Form.readSource_of_not_numeric held (by simp [numeric])
  case numeric =>
    intro n numeric kind unmarked
    have reading := Form.readSource_of_numeric held numeric
    rw [if_pos ⟨kind, unmarked⟩] at reading
    rw [reading]
    refine ⟨?_, ?_, ?_⟩
    · rintro (parsed | parsed) <;> rw [parsed]
    · intro parsed
      rw [parsed]
    · intro v parsed
      rw [parsed]
  case one =>
    intro fm t f susp n lawful canonical held isTally numeric after
    have law := Form.lawful_iff.mp lawful
    have record := Form.recomputeTally_record held isTally numeric
    have stored := Form.recomputeTally_storedCell canonical held isTally numeric
    have content : after.content susp f = (fm.tallyText f n).take f.length := by
      rw [show after = _ from Form.recomputeTally_of held isTally numeric, Form.mapTag,
        Form.mapRecords_content,
        Form.content_writeContent canonical susp (fm.length_le_tallyText f n)]
    have ownRecord : after.record t = some (fm.tallyMarked f n f, susp) := by
      rw [show after.record t = _ from record t, if_pos rfl]
    refine ⟨fun tags listed => ?listed, fun unlisted => ?unlisted, fun p covered => ?style,
      fun u ne => ?others, fun p outside => ?screen, fun p outside => ?saved, by simp [after],
      by simp [after], by simp [after], by simp [after], by simp [after]⟩
    case listed =>
      rw [content, ownRecord, Form.tallyText, Form.tallyMarked, listed]
      simp only [Form.tallyResult, Form.tallySum_eq_sum, Form.tallyIncomplete]
      exact ⟨rfl, rfl⟩
    case unlisted =>
      rw [content, ownRecord, Form.tallyText, Form.tallyMarked, unlisted]
      exact ⟨by simp [nullGlyph], rfl⟩
    case style =>
      rw [Form.cellOf_eq_storedCell, show after.storedCell _ p = _ from stored _ p,
        if_pos ⟨covered, Form.recomputeTally_inSaved fm t susp p⟩]
    case others =>
      rw [show after.record u = _ from record u, if_neg ne]
    case screen =>
      refine (stored false p).trans (if_neg ?_)
      rintro ⟨covered, onScreen⟩
      obtain out | ⟨rfl, inside⟩ := outside
      · rw [out] at covered
        cases covered
      · rw [Form.inSaved_true, inside] at onScreen
        cases onScreen
    case saved =>
      refine Form.savedCell_congr (Form.recomputeTally_window fm t)
        ((stored true p).trans (if_neg ?_))
      rintro ⟨covered, inside⟩
      obtain ⟨rfl, within⟩ := Bool.and_eq_true_iff.mp inside.symm
      obtain out | active | clear := outside
      · rw [out] at covered
        cases covered
      · cases active
      · rw [clear] at within
        cases within
  case several =>
    intro fm tags lawful canonical after names
    have law := Form.lawful_iff.mp lawful
    have record {t f susp} (held : fm.record t = some (f, susp)) :=
      Form.recomputeNaming_record law canonical tags held
    have cells {t f susp} (held : fm.record t = some (f, susp)) {p} (covered : f.covers p = true) :=
      Form.recomputeNaming_cellOf law canonical tags held covered
    have stored (saved p) := fun outside => Form.recomputeNaming_storedCell law canonical tags
      (saved := saved) (q := p) outside
    refine ⟨fun t f susp held => ⟨fun named => ?named, fun unnamed => ?unnamed⟩,
      fun t => Form.recomputeNaming_record_of_unheld law canonical tags,
      fun p active suspended => ?screen, fun p suspended => ?saved, by simp [after],
      by simp [after], by simp [after], by simp [after], by simp [after]⟩
    case named =>
      have tallies := Field.talliesAny_iff.mpr named
      exact ⟨(record held).trans (if_pos tallies),
        fun p covered => (cells held covered).trans (if_pos tallies)⟩
    case unnamed =>
      have tallies : ¬f.talliesAny tags = true := fun h => unnamed (Field.talliesAny_iff.mp h)
      exact ⟨(record held).trans (if_neg tallies),
        fun p covered => (cells held covered).trans (if_neg tallies)⟩
    case screen =>
      refine stored false p fun susp f held named covered onScreen => ?_
      have named := Field.talliesAny_iff.mp named
      cases susp with
      | false => simp [active f held named] at covered
      | true =>
        obtain out | inside := suspended f held named
        · simp [out] at covered
        · simp [inside] at onScreen
    case saved =>
      refine Form.savedCell_congr (Form.recomputeNaming_window fm tags)
        (stored true p fun susp f held named covered inSaved => ?_)
      have named := Field.talliesAny_iff.mp named
      obtain ⟨rfl, inside⟩ := Bool.and_eq_true_iff.mp inSaved.symm
      obtain out | clear := suspended
      · simp [out f held named] at covered
      · simp [clear] at inside

end Sys2Proof.Machine
end

section
/-! PROOFS. What one command can do to the state, said once: the directives as one family with their
bodies, the operator actions, and the other events; with it, that every command answers a next state. -/

namespace Sys2Proof.Machine

open Sys2Proof

/-! ## The directives as one family (R42) -/

/-- The body of READ (R60). -/
def bodyRead (selector : Byte) (s : State) : Except DirError State :=
  match selectorOf selector with
  | some chosen => .ok (s.buildReadReply chosen)
  | none => .error .range

/-- The body with which a directive is carried out; the other commands have none. -/
def directiveBody : Instr → Option (State → Except DirError State)
  | .setAt row col => some (bodySetAt row col)
  | .write glyphs => some (bodyWrite glyphs)
  | .fill glyph count => some (bodyFill glyph count)
  | .style number => some (bodyStyle number)
  | .erase count => some (bodyErase count)
  | .clearForm => some bodyClearForm
  | .field args => some (bodyField args)
  | .sources tally tags => some (bodySources tally tags)
  | .drop tag => some (bodyDrop tag)
  | .put tag force glyphs => some (bodyPut tag force glyphs)
  | .unmark tag => some (bodyUnmark tag)
  | .cursor row col => some (bodyCursor row col)
  | .cursorField tag => some (bodyCursorField tag)
  | .overlay top left height width style => some (bodyOverlay top left height width style)
  | .restore discard => some (bodyRestore discard)
  | .table number plane start count entries => some (bodyTable number plane start count entries)
  | .routeMatch index lead shortest longest => some (bodyRouteMatch index lead shortest longest)
  | .routeAction index target strip keep flags key =>
    some (bodyRouteAction index target strip keep flags key)
  | .clock day second millisecond => some (bodyClock day second millisecond)
  | .rate addend => some (bodyRate addend)
  | .deadline index flags day second tag style =>
    some (bodyDeadline index flags day second tag style)
  | .deadlineOff index => some (bodyDeadlineOff index)
  | .tone steps => some (bodyTone steps)
  | .options flags => some (bodyOptions flags)
  | .read selector => some (bodyRead selector)
  | _ => none

/-- READ pauses in front of a busy reply buffer and runs as a directive otherwise (R60). -/
theorem exec_read_cases (selector : Byte) (s : State) :
    exec (.read selector) s = .next (s.directive (.read selector) (bodyRead selector)) ∨
    ∃ chosen left, s.fetch = .directive (.read selector) left ∧
      selectorOf selector = some chosen ∧ s.line.reply ≠ none ∧
      exec (.read selector) s = .next
        { s with stream := { s.stream with phase := .applying s.offset (some chosen) } } := by
  change execRead selector s = _ ∨ ∃ chosen left, _ ∧ _ ∧ _ ∧ execRead selector s = _
  unfold execRead
  split
  case h_1 d left chosen reply fetched selected busy =>
    by_cases reached : d = .read selector
    · subst reached
      exact .inr ⟨chosen, left, fetched, selected, by simp [busy], by simp⟩
    · refine .inl ?_
      rw [if_neg reached, State.directive, fetched]
      simp [reached]
  case h_2 => exact .inl rfl

/-- Every directive but READ runs as a directive with its body (R42). -/
theorem exec_eq_directive {d : Instr} {body : State → Except DirError State}
    (isDirective : directiveBody d = some body) (notRead : ∀ selector, d ≠ .read selector)
    (s : State) : exec d s = .next (s.directive d body) := by
  cases d
  case read selector => exact absurd rfl (notRead selector)
  all_goals cases isDirective <;> rfl

/-- A directive has a code exactly when it has a body. -/
theorem directiveBody_isSome (d : Instr) : (directiveBody d).isSome = (directiveCode d).isSome := by
  cases d <;> rfl

/-! ## What an accepted directive can do -/

/-- The cursor may stand at the position: a cell, inside an open window (R99, R134). -/
def Form.cursorFits (fm : Form) (p : Nat) : Prop :=
  p < cellCount ∧ ∀ o, fm.overlay = some o → o.window.contains p = true

/-- The change of a record touches its marks alone, and sets no modified mark. -/
def Field.MarksOnly (g : Field → Field) : Prop :=
  ∀ f, (g f).definition = f.definition ∧ ((g f).modified = true → f.modified = true)

/-- What the body of an accepted directive can make of the state. -/
inductive State.Applied (s : State) : Instr → State → Prop
  | writePos (d : Instr) (p : Nat) (inStore : p < cellCount) :
    Applied s d { s with stream := { s.stream with writePos := p } }
  | style (d : Instr) (n : Nat) : Applied s d { s with stream := { s.stream with style := n } }
  | run (d : Instr) (cells : List Cell) : Applied s d (s.hostWrite cells)
  | cleared : Applied s .clearForm
      { s with
        form := { formReset with insert := s.form.insert }
        stream := { s.stream with writePos := 0, style := 0 } }
  | cursor (d : Instr) (p : Nat) (exits : d.runsExit = true)
      (fits : s.form.lawful = true → s.form.cursorFits p) : Applied s d (s.hostCursor p)
  | tables (d : Instr) (t : Tables) (sized : s.tables.sizeLaw = true → t.sizeLaw = true) :
    Applied s d { s with tables := t }
  | field (args : FieldArgs) (f : Field) (asked : fieldRecord args s.stream.writePos = .ok f)
      (reachable : s.form.reachable f = true) (unsuspended : s.form.suspendedTag f.tag = none)
      (unmodified : ∀ g ∈ s.form.overlapped f, g.modified = false)
      (room : s.form.active.length - (s.form.overlapped f).length + s.form.suspended.length <
        poolSize) :
    Applied s (.field args) { s with form := s.form.define s.clock.second f }
  | sources (tally : Byte) (tags : List Byte) (f : Field) (susp : Bool)
      (held : s.form.record tally.toNat = some (f, susp)) (isTally : f.kind = .tally) :
    Applied s (.sources tally tags)
      { s with
        form := (s.form.mapTag tally.toNat fun g =>
          { g with sources := some (tags.map (·.toNat)) }).recomputeTally tally.toNat }
  | dropped (tag : Byte) : Applied s (.drop tag)
      { s with form := (s.form.dropTags [tag.toNat]).recomputeNaming [tag.toNat] }
  | put (tag force : Byte) (glyphs : List Byte) (f : Field) (susp : Bool)
      (held : s.form.record tag.toNat = some (f, susp))
      (due : f.modified = false ∨ force.getLsbD 0 = true) :
    Applied s (.put tag force glyphs) { s with form := s.form.putText susp f glyphs }
  | marks (d : Instr) (g : Field → Field) (only : Field.MarksOnly g) :
    Applied s d { s with form := s.form.mapRecords g }
  | opened (top left height width style : Byte) (w : Window) (closed : s.form.overlay = none)
      (fits : w.fits = true) :
    Applied s (.overlay top left height width style)
      { s with form := s.form.openWindow w style.toNat }
  | closed (discard : Byte) (o : Overlay) (opened : s.form.overlay = some o)
      (due : discard.getLsbD 0 = true ∨
        ∀ f ∈ s.form.active, o.window.holds f = true → f.modified = false) :
    Applied s (.restore discard) { s with form := s.form.closeWindow o }
  | clock (d : Instr) (day second ms : Nat) (inDay : day < daySpan) (inSecond : second < secondSpan)
      (inMs : ms < millisecondSpan) :
    Applied s d (State.checkDeadlines
      { s with
        clock := { s.clock with
          day := day, second := second, millisecond := ms, accumulator := 0 }
        form := s.form.writeClocks second fun _ => true }
      (day ≠ s.clock.day))
  | rate (d : Instr) (addend : Half) :
    Applied s d { s with clock := { s.clock with addend := addend.toNat } }
  | deadline (d : Instr) (i : Nat) (x : Deadline) :
    Applied s d (State.checkDeadline { s with clock := s.clock.setDeadline i x } i)
  | deadlineOff (d : Instr) (i : Nat) (x : Deadline) :
    Applied s d
      { s with
        clock := s.clock.setDeadline i x
        form := s.form.mapRecords (Field.alertOff i) }
  | tone (d : Instr) (p : Pattern) : Applied s d (s.sound p)
  | read (d : Instr) (chosen : Selector) : Applied s d (s.buildReadReply chosen)

/-! ## The tables keep their sizes (R4, R57) -/

@[simp] theorem loadPlane_length {α : Type} (table : List α) (base size index : Nat)
    (entries : List α) : (loadPlane table base size index entries).length = table.length := by
  induction entries generalizing table index with
  | nil => rfl
  | cons e rest ih => rw [loadPlane, ih, List.length_set]

@[simp] theorem loadStyles_length (styles : List Style) (index : Nat) (entries : List Style) :
    (loadStyles styles index entries).length = styles.length := by
  induction entries generalizing styles index with
  | nil => rfl
  | cons e rest ih =>
    rw [loadStyles, ih]
    split_ifs
    · rfl
    · exact List.length_set

/-- Style 0 is never loaded (R5). -/
@[simp] theorem loadStyles_head? (styles : List Style) (index : Nat) (entries : List Style) :
    (loadStyles styles index entries).head? = styles.head? := by
  induction entries generalizing styles index with
  | nil => rfl
  | cons e rest ih =>
    rw [loadStyles, ih]
    split_ifs with zero
    · rfl
    · rw [List.head?_eq_getElem?, List.head?_eq_getElem?, List.getElem?_set_ne zero]

theorem Tables.sizeLaw_iff (t : Tables) :
    t.sizeLaw = true ↔ t.styles.length = 16 ∧ t.styles.head? = some styleZero ∧
      t.keys.length = 384 ∧ t.classes.length = 256 ∧ t.routes.length = 16 := by
  simp [Tables.sizeLaw, and_assoc]

/-- A load keeps the sizes of the tables and style 0 (R4, R57). -/
theorem Tables.load_sizeLaw {t u : Tables} {number : Byte} {plane start : Nat}
    {entries : List Byte} (loaded : t.load number plane start entries = some u)
    (sized : t.sizeLaw = true) : u.sizeLaw = true := by
  rw [Tables.sizeLaw_iff] at sized ⊢
  unfold Tables.load at loaded
  split_ifs at loaded
  · obtain ⟨actions, -, rfl⟩ := Option.map_eq_some_iff.mp loaded
    simpa using sized
  · cases loaded
    simpa using sized
  · obtain ⟨styles, -, rfl⟩ := Option.map_eq_some_iff.mp loaded
    simpa using sized

theorem Tables.setRoute_sizeLaw {t : Tables} (i : Nat) (r : Route) (sized : t.sizeLaw = true) :
    (t.setRoute i r).sizeLaw = true := by
  rw [Tables.sizeLaw_iff] at sized ⊢
  simpa [Tables.setRoute] using sized

/-! ## Every accepted directive is one of these -/

section

variable {s u : State}

theorem positionOf_ok {row col : Byte} {p : Nat} (h : positionOf row col = .ok p) :
    p < cellCount := by
  unfold positionOf at h
  split_ifs at h with outside
  cases h
  simp only [screenRows, screenCols, cellCount, not_or] at outside ⊢
  omega

theorem bodySetAt_applied {row col : Byte} (h : bodySetAt row col s = .ok u) (d : Instr) :
    s.Applied d u := by
  unfold bodySetAt at h
  split at h
  case h_1 p place =>
    cases h
    exact .writePos d p (positionOf_ok place)
  case h_2 => cases h

theorem bodyFill_applied {glyph : Byte} {count : Half} (h : bodyFill glyph count s = .ok u)
    (d : Instr) : s.Applied d u := by
  unfold bodyFill at h
  split at h
  · cases h
    exact .run d _
  · cases h

theorem bodyErase_applied {count : Half} (h : bodyErase count s = .ok u) (d : Instr) :
    s.Applied d u := by
  unfold bodyErase at h
  split at h
  · cases h
    exact .run d _
  · cases h

theorem bodyWrite_applied {glyphs : List Byte} (h : bodyWrite glyphs s = .ok u) (d : Instr) :
    s.Applied d u := by
  unfold bodyWrite at h
  split_ifs at h
  cases h
  exact .run d _

theorem bodyStyle_applied {n : Byte} (h : bodyStyle n s = .ok u) (d : Instr) : s.Applied d u := by
  unfold bodyStyle at h
  split_ifs at h
  cases h
  exact .style d _

theorem bodyField_applied {args : FieldArgs} (h : bodyField args s = .ok u) :
    s.Applied (.field args) u := by
  unfold bodyField at h
  split at h
  case h_1 => cases h
  case h_2 f asked =>
    dsimp only at h
    split_ifs at h with outside held modified full
    cases h
    refine .field args f asked (by simpa using outside) (by simpa using held) (fun g inTheWay => ?_)
      (Nat.lt_of_not_le full)
    simpa using fun marked => modified (List.any_eq_true.mpr ⟨g, inTheWay, marked⟩)

theorem bodySources_applied {tally : Byte} {tags : List Byte}
    (h : bodySources tally tags s = .ok u) : s.Applied (.sources tally tags) u := by
  unfold bodySources at h
  split at h
  · cases h
  split at h
  case h_1 => cases h
  case h_2 f susp held =>
    split_ifs at h with other
    cases h
    exact .sources tally tags f susp held (by simpa using other)

theorem bodyDrop_applied {tag : Byte} (h : bodyDrop tag s = .ok u) : s.Applied (.drop tag) u := by
  unfold bodyDrop at h
  split_ifs at h
  split at h
  · cases h
  · cases h
    exact .dropped tag

/-- A change of marks on the record of one tag is a change of marks. -/
theorem Field.MarksOnly.ofTag {g : Field → Field} (only : Field.MarksOnly g) (t : Nat) :
    Field.MarksOnly fun f => if f.tag = t then g f else f := fun f => by
  dsimp only
  split_ifs
  · exact only f
  · exact ⟨rfl, id⟩

theorem Field.marksOnly_collision (b : Bool) :
    Field.MarksOnly fun f => { f with collision := b } := fun _ => ⟨rfl, id⟩

theorem Field.marksOnly_unmarked : Field.MarksOnly Field.unmarked :=
  fun _ => ⟨rfl, fun marked => by cases marked⟩

theorem Field.marksOnly_alertOff (i : Nat) : Field.MarksOnly (Field.alertOff i) := fun f => by
  unfold Field.alertOff
  split
  · split_ifs
    · exact ⟨rfl, id⟩
    · exact ⟨rfl, id⟩
  · exact ⟨rfl, id⟩

theorem bodyPut_applied {tag force : Byte} {glyphs : List Byte}
    (h : bodyPut tag force glyphs s = .ok u) : s.Applied (.put tag force glyphs) u := by
  unfold bodyPut at h
  split_ifs at h
  split at h
  case h_1 => cases h
  case h_2 f susp held =>
    split_ifs at h with wrongKind heldOff
    · cases h
      exact .marks _ _ ((Field.marksOnly_collision true).ofTag f.tag)
    · cases h
      refine .put tag force glyphs f susp held ?_
      by_contra neither
      simp_all

theorem bodyUnmark_applied {tag : Byte} (h : bodyUnmark tag s = .ok u) (d : Instr) :
    s.Applied d u := by
  unfold bodyUnmark at h
  split_ifs at h
  · cases h
    exact .marks d _ Field.marksOnly_unmarked
  · split at h
    · cases h
    · cases h
      exact .marks d _ (Field.marksOnly_unmarked.ofTag tag.toNat)

theorem bodyCursor_applied {row col : Byte} (h : bodyCursor row col s = .ok u) :
    s.Applied (.cursor row col) u := by
  unfold bodyCursor at h
  split at h
  case h_1 => cases h
  case h_2 p place =>
    split_ifs at h with outside
    cases h
    refine .cursor _ p rfl fun _ => ⟨positionOf_ok place, fun o opened => ?_⟩
    simpa [opened, Form.inWindow] using outside

/-- The first cell of an active record inside an open window may hold the cursor. -/
theorem Form.cursorFits_start {fm : Form} (lawful : fm.lawful = true) {f : Field}
    (active : f ∈ fm.active) (reachable : fm.reachable f = true) : fm.cursorFits f.start := by
  have placed := (Form.lawful_iff.mp lawful).activePlaced f active
  exact ⟨(Field.placed_iff.mp placed).2.2, fun o opened =>
    Window.holds_iff.mp (Form.reachable_iff.mp reachable o opened) _ (Field.covers_start placed)⟩

theorem bodyCursorField_applied {tag : Byte} (h : bodyCursorField tag s = .ok u) :
    s.Applied (.cursorField tag) u := by
  unfold bodyCursorField at h
  split at h
  · cases h
  split at h
  case h_1 => cases h
  case h_2 f found =>
    split_ifs at h with reachable
    cases h
    refine .cursor _ f.start rfl fun lawful => ?_
    exact Form.cursorFits_start lawful (List.mem_of_find?_eq_some found) reachable

theorem bodyOverlay_applied {top left height width style : Byte}
    (h : bodyOverlay top left height width style s = .ok u) :
    s.Applied (.overlay top left height width style) u := by
  unfold bodyOverlay at h
  dsimp only at h
  split_ifs at h with busy unfit
  cases h
  exact .opened top left height width style _ (by simpa using busy) (by simpa using unfit)

theorem bodyRestore_applied {discard : Byte} (h : bodyRestore discard s = .ok u) :
    s.Applied (.restore discard) u := by
  unfold bodyRestore at h
  split at h
  case h_1 => cases h
  case h_2 o opened =>
    split_ifs at h with held
    cases h
    refine .closed discard o opened ?_
    cases bit : discard.getLsbD 0 with
    | true => exact .inl rfl
    | false =>
      refine .inr fun f active inside => Bool.eq_false_iff.mpr fun modified => held ?_
      rw [bit, Bool.not_false, Bool.true_and]
      exact List.any_eq_true.mpr ⟨f, active, Bool.and_eq_true_iff.mpr ⟨inside, modified⟩⟩

theorem bodyTable_applied {number plane start count : Byte} {entries : List Byte}
    (h : bodyTable number plane start count entries s = .ok u) (d : Instr) : s.Applied d u := by
  unfold bodyTable at h
  split at h
  case h_1 => cases h
  case h_2 planes size shape =>
    split_ifs at h
    split at h
    case h_1 => cases h
    case h_2 t loaded =>
      cases h
      exact .tables d t (Tables.load_sizeLaw loaded)

theorem bodyOptions_applied {flags : Byte} (h : bodyOptions flags s = .ok u) (d : Instr) :
    s.Applied d u := by
  cases h
  exact .tables d _ id

theorem bodyRouteMatch_applied {index : Byte} {lead : List Byte} {shortest longest : Byte}
    (h : bodyRouteMatch index lead shortest longest s = .ok u) (d : Instr) : s.Applied d u := by
  unfold bodyRouteMatch at h
  dsimp only at h
  split_ifs at h
  cases h
  exact .tables d _ (Tables.setRoute_sizeLaw _ _)

theorem bodyRouteAction_applied {index target strip keep flags key : Byte}
    (h : bodyRouteAction index target strip keep flags key s = .ok u) (d : Instr) :
    s.Applied d u := by
  unfold bodyRouteAction at h
  dsimp only at h
  split at h
  · cases h
  split at h
  · cases h
  split at h
  · cases h
  split at h
  case h_1 => cases h
  case h_2 mode known =>
    split_ifs at h
    cases h
    exact .tables d _ (Tables.setRoute_sizeLaw _ _)

theorem bodyClock_applied {day : Half} {second : Triple} {ms : Half}
    (h : bodyClock day second ms s = .ok u) (d : Instr) : s.Applied d u := by
  unfold bodyClock at h
  split_ifs at h with longDay longSecond
  rw [← Except.ok.inj h]
  exact .clock d day.toNat second.toNat ms.toNat day.isLt (Nat.lt_of_not_le longDay)
    (Nat.lt_of_not_le longSecond)

theorem bodyDeadline_applied {index flags : Byte} {day : Option Half} {second : Triple}
    {tag style : Byte} (h : bodyDeadline index flags day second tag style s = .ok u) (d : Instr) :
    s.Applied d u := by
  unfold bodyDeadline at h
  split_ifs at h
  rw [← Except.ok.inj h]
  exact .deadline d index.toNat _

theorem bodyDeadlineOff_applied {index : Byte} (h : bodyDeadlineOff index s = .ok u) (d : Instr) :
    s.Applied d u := by
  unfold bodyDeadlineOff at h
  split_ifs at h
  cases h
  exact .deadlineOff d index.toNat _

theorem bodyTone_applied {steps : List (Byte × Byte)} (h : bodyTone steps s = .ok u) (d : Instr) :
    s.Applied d u := by
  unfold bodyTone at h
  split_ifs at h
  split at h
  case h_1 => cases h
  case h_2 =>
    cases h
    exact .tone d _

theorem bodyRead_applied {selector : Byte} (h : bodyRead selector s = .ok u) (d : Instr) :
    s.Applied d u := by
  unfold bodyRead at h
  split at h
  case h_1 chosen selected =>
    cases h
    exact .read d chosen
  case h_2 => cases h

/-- An accepted directive makes of the state one of the things listed. -/
theorem directiveBody_applied {d : Instr} {body : State → Except DirError State}
    (isDirective : directiveBody d = some body) (accepted : body s = .ok u) : s.Applied d u := by
  cases d <;> cases isDirective
  case setAt => exact bodySetAt_applied accepted _
  case write => exact bodyWrite_applied accepted _
  case fill => exact bodyFill_applied accepted _
  case style => exact bodyStyle_applied accepted _
  case erase => exact bodyErase_applied accepted _
  case clearForm =>
    cases accepted
    exact .cleared
  case field => exact bodyField_applied accepted
  case sources => exact bodySources_applied accepted
  case drop => exact bodyDrop_applied accepted
  case put => exact bodyPut_applied accepted
  case unmark => exact bodyUnmark_applied accepted _
  case cursor => exact bodyCursor_applied accepted
  case cursorField => exact bodyCursorField_applied accepted
  case overlay => exact bodyOverlay_applied accepted
  case restore => exact bodyRestore_applied accepted
  case table => exact bodyTable_applied accepted _
  case routeMatch => exact bodyRouteMatch_applied accepted _
  case routeAction => exact bodyRouteAction_applied accepted _
  case clock => exact bodyClock_applied accepted _
  case rate =>
    cases accepted
    exact .rate _ _
  case deadline => exact bodyDeadline_applied accepted _
  case deadlineOff => exact bodyDeadlineOff_applied accepted _
  case tone => exact bodyTone_applied accepted _
  case options => exact bodyOptions_applied accepted _
  case read => exact bodyRead_applied accepted _

end

end Sys2Proof.Machine
end

section
/-! PROOFS. What the operator's actions, the scans and the events of the other units can make of the
state, and the one lemma on which every law rests: each command answers a next state, and that state is one
of those listed. -/

namespace Sys2Proof.Machine

open Sys2Proof

/-! ## The operator's actions (R95 to R118, R148, R155) -/

/-- What an action taken from the queue can make of the state that its taking leaves. -/
inductive State.Acted (s : State) : State → Prop
  | refused : Acted s s.keyRefused
  | unchanged : Acted s s
  | moved (push : Bool) (p : Nat)
      (fits : s.form.lawful = true → s.form.cursorLaw = true → s.form.cursorFits p) :
    Acted s { s with form := s.form.moveTo s.tables.options.insertAtEntry push p }
  | back (left : List Nat) (f : Field) (rest : left <:+ s.form.history) (active : f ∈ s.form.active)
      (reachable : s.form.reachable f = true) :
    Acted s { s with
      form := { s.form with history := left }.moveTo s.tables.options.insertAtEntry false f.start }
  | backRefused : Acted s (State.keyRefused { s with form := { s.form with history := [] } })
  | char (f : Field) (offset : Nat) (glyphs : List Byte) (tone : Tone)
      (entry : s.form.entryField = some f) :
    Acted s { s with
      tone := tone
      form := ((s.form.writeFrom false f offset glyphs).edited f).advance
        s.tables.options.insertAtEntry f }
  | edited (f : Field) (offset : Nat) (glyphs : List Byte) (p : Nat)
      (entry : s.form.entryField = some f) (inside : f.covers p = true) :
    Acted s { s with
      form := { (s.form.writeFrom false f offset glyphs).edited f with cursor := p } }
  | insertToggle : Acted s { s with form := { s.form with insert := !s.form.insert } }
  | stepped (f : Field) (glyphs : List Byte) (entry : s.form.entryField = some f) :
    Acted s { s with
      form := (((s.form.writeContent false f glyphs).edited f).setError f.tag none).recomputeNaming
        [f.tag] }
  | submitRefused (f : Field) (swept : f ∈ s.form.exitProcess.eligible) :
    Acted s (State.keyRefused
      { s with form := s.form.exitProcess.sweepRefused s.tables.options.insertAtEntry f })
  | submitted (key : Byte) :
    Acted s (State.buildReport { s with form := s.form.exitProcess } 0x81 key s.clock).submitAccepted
  | cancelled (bytes : List Byte) : Acted s (s.claimReply bytes).submitAccepted

section

variable {fm : Form}

theorem Form.mem_eligible {f : Field} :
    f ∈ fm.eligible ↔ f ∈ fm.active ∧ f.kind = .entry ∧ fm.reachable f = true := by
  simp [Form.eligible]

theorem Form.entryField_iff {f : Field} :
    fm.entryField = some f ↔ fm.current = some f ∧ f.kind = .entry := by
  unfold Form.entryField
  cases fm.current with
  | none => simp
  | some g => aesop

theorem Form.mem_active_of_fieldAt {p : Nat} {f : Field} (found : fm.fieldAt p = some f) :
    f ∈ fm.active ∧ f.covers p = true := by
  have covered := List.find?_some found
  exact ⟨List.mem_of_find?_eq_some found, covered⟩

theorem Form.cursorLaw_iff : fm.cursorLaw = true ↔
    fm.cursorFits fm.cursor ∧ ∀ o, fm.overlay = some o → o.savedCursor < cellCount := by
  unfold Form.cursorLaw Form.cursorFits
  cases fm.overlay with
  | none => simp
  | some o =>
    simp only [Bool.and_eq_true, decide_eq_true_iff, Option.some.injEq, forall_eq']
    tauto

theorem Window.fits_iff {w : Window} : w.fits = true ↔
    (1 ≤ w.height ∧ w.height ≤ 14) ∧ (1 ≤ w.width ∧ w.width ≤ 60) ∧
    w.top + w.height ≤ 28 ∧ w.left + w.width ≤ 96 := by
  simp [Window.fits, and_assoc]

theorem Window.contains_cellAt {w : Window} (fits : w.fits = true) {i j : Nat} (row : i < w.height)
    (col : j < w.width) : w.contains (w.cellAt i j) = true := by
  simp only [Window.contains, screenCols, Window.cellAt_div fits col, Window.cellAt_mod fits col,
    Bool.and_eq_true, decide_eq_true_iff]
  omega

theorem Window.corner_eq_cellAt (w : Window) : w.corner = w.cellAt 0 0 := rfl

theorem Window.lt_of_contains {w : Window} (fits : w.fits = true) {p : Nat}
    (inside : w.contains p = true) : p < 2688 := by
  obtain ⟨i, j, row, col, rfl⟩ := Window.exists_cellAt_of_contains inside
  have := Window.fits_iff.mp fits
  rw [Window.cellAt_eq]
  omega

/-- A position of a lawful open window may hold the cursor. -/
theorem Form.cursorFits_of_contains (law : fm.Lawful) {o : Overlay} (opened : fm.overlay = some o)
    {p : Nat} (inside : o.window.contains p = true) : fm.cursorFits p := by
  refine ⟨Window.lt_of_contains (law.window o opened).fits inside, fun o' opened' => ?_⟩
  cases opened.symm.trans opened'
  exact inside

theorem Form.cursorFits_of_closed (closed : fm.overlay = none) {p : Nat} (inStore : p < 2688) :
    fm.cursorFits p := ⟨inStore, fun o opened => by rw [closed] at opened; cases opened⟩

/-- Going on in a window's succession stays in the window (R104). -/
theorem Window.contains_shifted {w : Window} (fits : w.fits = true) (p places : Nat) :
    w.contains (w.shifted p places) = true := by
  have ⟨⟨rows, _⟩, ⟨cols, _⟩, _⟩ := Window.fits_iff.mp fits
  unfold Window.shifted
  dsimp only
  generalize (p / screenCols - w.top) * w.width + (p % screenCols - w.left) + places = index
  have there : index % (w.height * w.width) < w.width * w.height := by
    rw [Nat.mul_comm w.width]
    exact Nat.mod_lt _ (Nat.mul_pos rows cols)
  exact Window.contains_cellAt fits (Nat.div_lt_of_lt_mul there) (Nat.mod_lt _ cols)

/-- The four neighbours are cells where the cursor may stand. -/
theorem Form.cursorFits_arrow {goal : Form → Nat}
    (arrow : goal = Form.leftOf ∨ goal = Form.rightOf ∨ goal = Form.upOf ∨ goal = Form.downOf)
    (lawful : fm.lawful = true) : fm.cursorFits (goal fm) := by
  have law := Form.lawful_iff.mp lawful
  cases opened : fm.overlay with
  | some o =>
    have fits := (law.window o opened).fits
    refine Form.cursorFits_of_contains law opened ?_
    obtain rfl | rfl | rfl | rfl := arrow
    · rw [Form.leftOf_of_overlay opened]; exact Window.contains_shifted fits _ _
    · rw [Form.rightOf_of_overlay opened]; exact Window.contains_shifted fits _ _
    · rw [Form.upOf_of_overlay opened]; exact Window.contains_shifted fits _ _
    · rw [Form.downOf_of_overlay opened]; exact Window.contains_shifted fits _ _
  | none =>
    refine Form.cursorFits_of_closed opened ?_
    obtain rfl | rfl | rfl | rfl := arrow
    · simp only [Form.leftOf, opened, previousPosition, cellCount]; omega
    · simp only [Form.rightOf, opened, nextPosition, cellCount]; omega
    · simp only [Form.upOf, opened, cellCount, screenCols]; omega
    · simp only [Form.downOf, opened, cellCount, screenCols]; omega

/-- A field move ends where the cursor may stand (R106). -/
theorem Form.cursorFits_moveTarget {chosen : Option Field}
    (eligible : ∀ f, chosen = some f → f ∈ fm.eligible) (lawful : fm.lawful = true) :
    fm.cursorFits (fm.moveTarget chosen) := by
  have law := Form.lawful_iff.mp lawful
  cases chosen with
  | some f =>
    obtain ⟨active, _, reachable⟩ := Form.mem_eligible.mp (eligible f rfl)
    exact Form.cursorFits_start lawful active reachable
  | none =>
    cases opened : fm.overlay with
    | none =>
      have home : fm.moveTarget none = 0 := by simp [Form.moveTarget, Form.homePosition, opened]
      rw [home]
      exact Form.cursorFits_of_closed opened (Nat.succ_pos _)
    | some o =>
      have fits := (law.window o opened).fits
      have ⟨⟨rows, _⟩, ⟨cols, _⟩, _⟩ := Window.fits_iff.mp fits
      have home : fm.moveTarget none = o.window.cellAt 0 0 := by
        simp [Form.moveTarget, Form.homePosition, opened, Window.corner_eq_cellAt]
      rw [home]
      exact Form.cursorFits_of_contains law opened (Window.contains_cellAt fits rows cols)

theorem Form.homeField_eligible {f : Field} (chosen : fm.homeField = some f) : f ∈ fm.eligible :=
  List.mem_of_head? chosen

theorem Form.newlineField_eligible {f : Field} (chosen : fm.newlineField = some f) :
    f ∈ fm.eligible := by
  unfold Form.newlineField at chosen
  split at chosen
  · next g found =>
    cases chosen
    exact List.mem_of_find?_eq_some found
  · exact List.mem_of_head? chosen

theorem Form.chained_eligible {f : Field} (chosen : fm.chained = some f) : f ∈ fm.eligible := by
  unfold Form.chained at chosen
  split at chosen
  · split at chosen
    · exact List.mem_of_find?_eq_some chosen
    · cases chosen
  · cases chosen

theorem Form.nextField_eligible {f : Field} (chosen : fm.nextField = some f) : f ∈ fm.eligible := by
  unfold Form.nextField at chosen
  split at chosen
  · next g found =>
    cases chosen
    exact Form.chained_eligible found
  · split at chosen
    · next g found =>
      cases chosen
      exact List.mem_of_find?_eq_some found
    · exact List.mem_of_head? chosen

theorem Form.prevField_eligible {f : Field} (chosen : fm.prevField = some f) : f ∈ fm.eligible := by
  unfold Form.prevField at chosen
  dsimp only at chosen
  split at chosen
  · next g found =>
    cases chosen
    exact List.mem_reverse.mp (List.mem_of_find?_eq_some found)
  · exact List.mem_of_getLast? chosen

/-- BACK answers a reachable active record and tags that were below it (R111). -/
theorem Form.backPop_some {history left : List Nat} {f : Field}
    (popped : fm.backPop history = (some f, left)) :
    left <:+ history ∧ f ∈ fm.active ∧ fm.reachable f = true := by
  induction history with
  | nil => cases popped
  | cons t rest ih =>
    unfold Form.backPop at popped
    split at popped
    · next g accepted =>
      cases popped
      unfold Form.backField at accepted
      split at accepted
      · next g found =>
        split_ifs at accepted with fits
        cases accepted
        exact ⟨List.suffix_cons t _, List.mem_of_find?_eq_some found,
          (Bool.and_eq_true_iff.mp fits).2⟩
      · cases accepted
    · obtain ⟨below, held⟩ := ih popped
      exact ⟨below.trans (List.suffix_cons t rest), held⟩

/-- BACK that finds nothing leaves the history empty (R111). -/
theorem Form.backPop_none {history left : List Nat} (popped : fm.backPop history = (none, left)) :
    left = [] := by
  induction history with
  | nil => cases popped; rfl
  | cons t rest ih =>
    unfold Form.backPop at popped
    split at popped
    · cases popped
    · exact ih popped

end

section

variable {s : State}

theorem State.goBack_acted (s : State) : s.Acted s.goBack := by
  unfold State.goBack
  dsimp only
  cases popped : s.form.backPop s.form.history with
  | mk chosen left =>
    cases chosen with
    | none =>
      obtain rfl := Form.backPop_none popped
      exact .backRefused
    | some f =>
      obtain ⟨below, active, reachable⟩ := Form.backPop_some popped
      exact .back left f below active reachable

/-- The place of an insert or overtype is written from the cursor on (R112 step 4). -/
theorem Form.placeGlyph_some {fm placed : Form} {f : Field} {g : Byte}
    (h : fm.placeGlyph f g = some placed) :
    ∃ glyphs, placed = fm.writeFrom false f (fm.cursor - f.start) glyphs := by
  unfold Form.placeGlyph at h
  dsimp only at h
  split_ifs at h
  · cases h
    exact ⟨_, rfl⟩
  · cases h
    exact ⟨_, rfl⟩

theorem bodyChar_acted {glyph : Byte} {t : State} (h : bodyChar glyph s = some t) : s.Acted t := by
  unfold bodyChar at h
  split at h
  · cases h
  next f entry =>
    dsimp only at h
    split at h
    · cases h
    split at h
    · cases h
    next placed place =>
      obtain ⟨glyphs, rfl⟩ := Form.placeGlyph_some place
      cases h
      split_ifs
      · exact .char f _ glyphs (s.tone.request .click) entry
      · exact .char f _ glyphs s.tone entry

/-- The current field covers the cursor. -/
theorem Form.covers_cursor_of_entryField {fm : Form} {f : Field} (entry : fm.entryField = some f) :
    f.covers fm.cursor = true :=
  (Form.mem_active_of_fieldAt (Form.entryField_iff.mp entry).1).2

theorem bodyBackspace_acted {t : State} (h : bodyBackspace s = some t) : s.Acted t := by
  unfold bodyBackspace at h
  split at h
  · cases h
  next f entry =>
    split at h
    · cases h
    next later =>
      cases h
      have covered := Field.covers_iff.mp (Form.covers_cursor_of_entryField entry)
      exact .edited f _ _ _ entry (Field.covers_iff.mpr (by omega))

/-- An edit that leaves the cursor where it is (R114, R115). -/
theorem State.Acted.editedHere {f : Field} {offset : Nat} {glyphs : List Byte}
    (entry : s.form.entryField = some f) :
    s.Acted { s with form := (s.form.writeFrom false f offset glyphs).edited f } := by
  have stays : (s.form.writeFrom false f offset glyphs).edited f =
      { (s.form.writeFrom false f offset glyphs).edited f with cursor := s.form.cursor } := by
    simp [Form.edited, Form.mapTag, Form.mapRecords, Form.mapSuspended, Form.writeFrom]
  rw [stays]
  exact .edited f offset glyphs _ entry (Form.covers_cursor_of_entryField entry)

theorem bodyDelete_acted {t : State} (h : bodyDelete s = some t) : s.Acted t := by
  unfold bodyDelete at h
  split at h
  · cases h
  next f entry =>
    cases h
    exact .editedHere entry

theorem bodyEraseToEnd_acted {t : State} (h : bodyEraseToEnd s = some t) : s.Acted t := by
  unfold bodyEraseToEnd at h
  split at h
  · cases h
  next f entry =>
    cases h
    exact .editedHere entry

theorem bodyEraseField_acted {t : State} (h : bodyEraseField s = some t) : s.Acted t := by
  unfold bodyEraseField at h
  split at h
  · cases h
  next f entry =>
    cases h
    have covered := Field.covers_iff.mp (Form.covers_cursor_of_entryField entry)
    exact .edited f 0 _ _ entry (Field.covers_iff.mpr (by omega))

theorem stepField_acted {up : Bool} {t : State} (h : stepField up s = some t) : s.Acted t := by
  unfold stepField at h
  split at h
  · cases h
  next f entry =>
    split at h
    next n numeric =>
      split at h
      · cases h
      next v parsed =>
        dsimp only at h
        generalize clampTo n (if up = true then v + n.step else v - n.step) = w at h
        split at h
        · cases h
          exact .unchanged
        · cases h
          exact .stepped f _ entry
    all_goals cases h

/-- SUBMIT processing stops at a sweep field or builds its submission (R148 to R151). -/
theorem State.submitForm_cases (s : State) (key : Byte) :
    (∃ f ∈ s.form.exitProcess.eligible, s.submitForm key =
      ({ s with form := s.form.exitProcess.sweepRefused s.tables.options.insertAtEntry f }, false)) ∨
    s.submitForm key =
      (State.buildReport { s with form := s.form.exitProcess } 0x81 key s.clock, true) := by
  unfold State.submitForm
  dsimp only
  split
  next f found => exact .inl ⟨f, List.mem_of_find?_eq_some found, rfl⟩
  next => exact .inr rfl

end

/-- The operator actions, each with the action that its queue entry holds. -/
def operatorAction : Instr → Option Action
  | .char glyph => some (.char glyph)
  | .next => some .next
  | .prev => some .prev
  | .newline => some .newline
  | .home => some .home
  | .back => some .back
  | .left => some .left
  | .right => some .right
  | .up => some .up
  | .down => some .down
  | .backspace => some .backspace
  | .delete => some .delete
  | .eraseToEnd => some .eraseToEnd
  | .eraseField => some .eraseField
  | .insertToggle => some .insertToggle
  | .stepUp => some .stepUp
  | .stepDown => some .stepDown
  | .submit key => some (.submit key)
  | .cancel => some .cancel
  | .reset => some .reset
  | _ => none

section

variable {s : State} {a : Action}

/-- An editing action that is due is carried out or refused; one that is not due changes nothing. -/
theorem State.editAction_acted {body : State → Option State}
    (acted : ∀ {u t : State}, body u = some t → u.Acted t) :
    s.editAction a body = s ∨
      ∃ u, s.takeEntry (.action a) = some u ∧ u.Acted (s.editAction a body) := by
  obtain ⟨u, t, taken, done, eq⟩ | ⟨u, taken, _, eq⟩ | ⟨_, eq⟩ := s.editAction_cases a body
  · exact .inr ⟨u, taken, eq ▸ acted done⟩
  · exact .inr ⟨u, taken, eq ▸ .refused⟩
  · exact .inl eq

theorem State.moveAction_acted {push : Bool} {goal : Form → Nat}
    (fits : ∀ fm : Form, fm.lawful = true → fm.cursorFits (goal fm)) :
    s.moveAction a push goal = s ∨
      ∃ u, s.takeEntry (.action a) = some u ∧ u.Acted (s.moveAction a push goal) := by
  obtain ⟨u, taken, eq⟩ | ⟨_, eq⟩ := s.moveAction_cases a push goal
  · exact .inr ⟨u, taken, eq ▸ .moved push _ fun lawful _ => fits u.form lawful⟩
  · exact .inl eq

theorem State.takeClaim_some {t : State} (h : s.takeClaim a = some t) :
    s.line.reply = none ∧ s.takeEntry (.action a) = some t := by
  unfold State.takeClaim at h
  split_ifs at h with busy
  exact ⟨by simpa using busy, h⟩

/-- SUBMIT and CANCEL, taken from the queue or not due (R95). -/
theorem State.takeClaim_acted {done : State → State} (acted : ∀ u : State, u.Acted (done u)) :
    let t := match s.takeClaim a with
      | some u => done u
      | none => s
    t = s ∨ ∃ u, s.takeEntry (.action a) = some u ∧ u.Acted t := by
  dsimp only
  cases claimed : s.takeClaim a with
  | none => exact .inl rfl
  | some u => exact .inr ⟨u, (State.takeClaim_some claimed).2, acted u⟩

theorem State.submit_acted (s : State) (key : Byte) :
    s.Acted (if (s.submitForm key).2 then (s.submitForm key).1.submitAccepted
      else (s.submitForm key).1.keyRefused) := by
  obtain ⟨f, swept, eq⟩ | eq := s.submitForm_cases key
  · rw [eq]
    exact .submitRefused f swept
  · rw [eq]
    exact .submitted key

end

/-- An operator action is carried out on the state that its taking leaves, or is not due (R95). -/
theorem exec_operator {c : Instr} {a : Action} (isAction : operatorAction c = some a) (s : State) :
    ∃ t, exec c s = .next t ∧
      (t = s ∨ ∃ u, s.takeEntry (.action a) = some u ∧ u.Acted t) := by
  have arrow {goal : Form → Nat} (h : goal = Form.leftOf ∨ goal = Form.rightOf ∨
      goal = Form.upOf ∨ goal = Form.downOf) (fm : Form) (lawful : fm.lawful = true) :=
    Form.cursorFits_arrow (fm := fm) h lawful
  have field {chosen : Form → Option Field} (h : ∀ fm f, chosen fm = some f → f ∈ fm.eligible)
      (fm : Form) (lawful : fm.lawful = true) :=
    Form.cursorFits_moveTarget (fm := fm) (h fm) lawful
  cases c <;> cases isAction
  case char glyph => exact ⟨_, rfl, State.editAction_acted bodyChar_acted⟩
  case backspace => exact ⟨_, rfl, State.editAction_acted bodyBackspace_acted⟩
  case delete => exact ⟨_, rfl, State.editAction_acted bodyDelete_acted⟩
  case eraseToEnd => exact ⟨_, rfl, State.editAction_acted bodyEraseToEnd_acted⟩
  case eraseField => exact ⟨_, rfl, State.editAction_acted bodyEraseField_acted⟩
  case insertToggle =>
    refine ⟨_, rfl, State.editAction_acted fun {u t} h => ?_⟩
    cases h
    exact .insertToggle
  case stepUp => exact ⟨_, rfl, State.editAction_acted stepField_acted⟩
  case stepDown => exact ⟨_, rfl, State.editAction_acted stepField_acted⟩
  case left => exact ⟨_, rfl, State.moveAction_acted (arrow (.inl rfl))⟩
  case right => exact ⟨_, rfl, State.moveAction_acted (arrow (.inr (.inl rfl)))⟩
  case up => exact ⟨_, rfl, State.moveAction_acted (arrow (.inr (.inr (.inl rfl))))⟩
  case down => exact ⟨_, rfl, State.moveAction_acted (arrow (.inr (.inr (.inr rfl))))⟩
  case home => exact ⟨_, rfl, State.moveAction_acted (field fun _ _ => Form.homeField_eligible)⟩
  case newline =>
    exact ⟨_, rfl, State.moveAction_acted (field fun _ _ => Form.newlineField_eligible)⟩
  case next => exact ⟨_, rfl, State.moveAction_acted (field fun _ _ => Form.nextField_eligible)⟩
  case prev => exact ⟨_, rfl, State.moveAction_acted (field fun _ _ => Form.prevField_eligible)⟩
  case back =>
    refine ⟨_, rfl, ?_⟩
    cases taken : s.takeEntry (.action .back) with
    | none => exact .inl rfl
    | some u => exact .inr ⟨u, rfl, u.goBack_acted⟩
  case submit key => exact ⟨_, rfl, State.takeClaim_acted fun u => u.submit_acted key⟩
  case cancel => exact ⟨_, rfl, State.takeClaim_acted fun u => .cancelled _⟩
  case reset =>
    refine ⟨_, rfl, ?_⟩
    cases taken : s.takeEntry (.action .reset) with
    | none => exact .inl rfl
    | some u => exact .inr ⟨u, rfl, .unchanged⟩

end Sys2Proof.Machine
end

section
/-! PROOFS. Scans, arrivals, the line, the starts and the display as events, and the one lemma on which
every law rests: each command answers a next state, and that state is one of those listed. -/

namespace Sys2Proof.Machine

open Sys2Proof

/-! ## Scan placement (R126 to R133) -/

/-- What a scan placement can make of the state from which its marker and its scan have been taken. -/
inductive State.Scanned (s : State) : State → Prop
  | refused : Scanned s s.scanRefused
  | placed (r : RoutePlace) (f : Field) (kept : List Byte) (active : f ∈ s.form.active)
      (entry : f.kind = .entry) (reachable : s.form.reachable f = true) :
    Scanned s (State.sound
      { s with form := s.form.placeScan s.tables.options.insertAtEntry r f kept } .good)
  | sweptOff (r : RoutePlace) (f g : Field) (kept : List Byte) (active : f ∈ s.form.active)
      (entry : f.kind = .entry) (reachable : s.form.reachable f = true)
      (swept : g ∈
        (s.form.placeScan s.tables.options.insertAtEntry r f kept).exitProcess.eligible) :
    Scanned s (State.scanRefused (State.sound
      { s with
        form := (s.form.placeScan s.tables.options.insertAtEntry r f kept).exitProcess.sweepRefused
          s.tables.options.insertAtEntry g } .good))
  | submitted (r : RoutePlace) (f : Field) (kept : List Byte) (key : Byte)
      (active : f ∈ s.form.active) (entry : f.kind = .entry)
      (reachable : s.form.reachable f = true) :
    Scanned s (State.submitAccepted (State.buildReport (State.sound
      { s with
        form := (s.form.placeScan s.tables.options.insertAtEntry r f kept).exitProcess } .good)
      0x81 key s.clock))

/-- A scan's target is a reachable active ENTRY field (R128). -/
theorem Form.scanTarget_some {fm : Form} {target : Nat} {f : Field}
    (h : fm.scanTarget target = some f) :
    f ∈ fm.active ∧ f.kind = .entry ∧ fm.reachable f = true := by
  unfold Form.scanTarget at h
  dsimp only at h
  split at h
  next g found =>
    split_ifs at h with fit
    cases h
    have active : f ∈ fm.active := by
      split at found
      · exact List.mem_of_find?_eq_some found
      · exact List.mem_of_find?_eq_some found
    simpa [active] using fit
  · cases h

theorem State.placeScan_scanned (s : State) (r : RoutePlace) (scan : List Byte) :
    s.Scanned (s.placeScan r scan) := by
  unfold State.placeScan
  split
  · exact .refused
  next f target =>
    obtain ⟨active, entry, reachable⟩ := Form.scanTarget_some target
    dsimp only
    generalize keptCharacters s.tables.classes r f scan = kept
    split
    · split
      · exact .placed r f _ active entry reachable
      · unfold State.submitFromScan
        dsimp only
        obtain ⟨g, swept, eq⟩ | eq := State.submitForm_cases (State.sound
          { s with form := s.form.placeScan s.tables.options.insertAtEntry r f kept } .good) r.key
        · rw [eq]
          exact .sweptOff r f g _ active entry reachable swept
        · rw [eq]
          exact .submitted r f _ r.key active entry reachable
    · exact .refused

/-! ## The other events -/

/-- What the events that are neither directives nor operator actions nor scan placements can make of the
state. -/
inductive State.Event (s : State) : Instr → State → Prop
  | powerUp (straps : BitVec 2) : Event s (.powerUp straps) (State.powerUp straps s.pending)
  | resetnAssert : Event s .resetnAssert
      { State.powerUp 0 s.pending with
        line := { lineUnitReset 0 with baud := s.line.baud }
        start := { resetLow := true, running := none, cause := s.start.cause } }
  | resetnRelease (straps : BitVec 2) : Event s (.resetnRelease straps)
      { s with
        form := { s.form with cells := [] }
        line := { s.line with baud := strapBaud straps, spaceLeft := spaceUnits }
        start := { s.start with resetLow := false, running := some .pin } }
  | startEnded (c : Instr) (cause : StartCause) : Event s c (s.startEnded cause)
  | lineReset : Event s .lineReset s.lineResetTaken
  | tick (c : Instr) : Event s c s.tick
  | chainAbandoned (c : Instr) (left : Nat) (chained : s.stream.phase = .chained left) :
    Event s c s.abandonChain
  | goodCharacter (c : Instr) (b : Byte) :
    Event s c (State.goodCharacter { s with line := s.line.seenAtMark } b)
  | frameFault (c : Instr) : Event s c s.frameFault
  | frameGone (c : Instr) (f : Sending) : Event s c (s.frameGone f)
  | blockTaken (c : Instr) (idle : s.stream.phase = .idle) :
    Event s c (State.beginBlock
      { s with
        stream := { s.stream with writePos := 0, style := 0 }
        input := s.input.applicationBegun })
  | blockContinued (c : Instr) (left : Nat) (chained : s.stream.phase = .chained left) :
    Event s c s.beginBlock
  | keyByte (c : Instr) (b : Byte) : Event s c (s.keyByte b)
  | gathered (c : Instr) (b : Byte) :
    Event s c { s with input := { s.input with scan := s.input.scan.gather b } }
  | scanCompleted (c : Instr) : Event s c s.scanCompleted
  | toneStepEnded (c : Instr) (p : Playing) : Event s c { s with tone := s.tone.stepEnded p }
  | rowStarted (c : Instr) :
    Event s c { s with display := { s.display with column := some 0, sent := [], ready := true } }
  | cellsSent (c : Instr) (n : Nat) : Event s c (s.sendCells n)
  | withdrawn (c : Instr) :
    Event s c { s with display := { s.display with column := none, ready := false } }
  | atMark (c : Instr) : Event s c { s with line := { s.line.seenAtMark with atSpace := false } }

/-! ## Every command -/

/-- What a command can make of the state. -/
inductive State.Change (s : State) : Instr → State → Prop
  | notDue (c : Instr) : Change s c s
  | refused (c : Instr) (e : DirError) (offset : Nat) (due : s.stream.phase = .applying offset none) :
    Change s c (s.refuseDirective e)
  | applied (d : Instr) (u : State) (left offset : Nat)
      (due : s.stream.phase = .applying offset none) (made : s.Applied d u) :
    Change s d (u.reachOffset left)
  | paused (c : Instr) (offset : Nat) (chosen : Selector)
      (due : s.stream.phase = .applying offset none) :
    Change s c { s with stream := { s.stream with phase := .applying s.offset (some chosen) } }
  | resumed (c : Instr) (offset left : Nat) (chosen : Selector)
      (due : s.stream.phase = .applying offset (some chosen)) :
    Change s c ((s.buildReadReply chosen).reachOffset left)
  | acted (c : Instr) (a : Action) (rest : List QueueEntry) (t : State)
      (isAction : operatorAction c = some a) (opened : s.input.entry = .openEntry)
      (queued : s.input.typeAhead = .action a :: rest)
      (made : State.Acted { s with input := { s.input with typeAhead := rest } } t) : Change s c t
  | scanned (rest : List QueueEntry) (scan : List Byte) (waiting : List (List Byte)) (t : State)
      (opened : s.input.entry = .openEntry) (queued : s.input.typeAhead = .marker :: rest)
      (scans : s.input.scans = scan :: waiting)
      (made : State.Scanned
        { s with input := { s.input with typeAhead := rest, scans := waiting } } t) :
    Change s .scanPlacement t
  | event (c : Instr) (t : State) (made : s.Event c t) : Change s c t

section

variable {s : State}

/-- A directive is applied, refused or not due (R42, R43). -/
theorem State.directive_changes {d : Instr} {body : State → Except DirError State}
    (isDirective : directiveBody d = some body) : s.Change d (s.directive d body) := by
  have offsetOf (fetched : s.fetch ≠ .nothing) := State.fetch_due fetched
  obtain ⟨left, t, fetched, accepted, eq⟩ | ⟨left, e, fetched, _, eq⟩ | ⟨code, fetched, _, eq⟩ | eq :=
    s.directive_cases d body
  · obtain ⟨offset, due⟩ := offsetOf (by simp [fetched])
    exact eq ▸ .applied d t left offset due (directiveBody_applied isDirective accepted)
  · obtain ⟨offset, due⟩ := offsetOf (by simp [fetched])
    exact eq ▸ .refused d e offset due
  · obtain ⟨offset, due⟩ := offsetOf (by simp [fetched])
    exact eq ▸ .refused d .length offset due
  · rw [eq]
    exact .notDue d

theorem exec_directive_changes {d : Instr} {body : State → Except DirError State}
    (isDirective : directiveBody d = some body) : ∃ t, exec d s = .next t ∧ s.Change d t := by
  by_cases isRead : ∃ selector, d = .read selector
  · obtain ⟨selector, rfl⟩ := isRead
    cases isDirective
    obtain eq | ⟨chosen, left, fetched, _, _, eq⟩ := exec_read_cases selector s
    · exact ⟨_, eq, State.directive_changes rfl⟩
    · obtain ⟨offset, due⟩ := State.fetch_due (s := s) (by simp [fetched])
      exact ⟨_, eq, .paused _ offset chosen due⟩
  · exact ⟨_, exec_eq_directive isDirective (fun selector same => isRead ⟨selector, same⟩) s,
      State.directive_changes isDirective⟩

theorem exec_operator_changes {c : Instr} {a : Action} (isAction : operatorAction c = some a) :
    ∃ t, exec c s = .next t ∧ s.Change c t := by
  obtain ⟨t, answers, rfl | ⟨u, taken, acted⟩⟩ := exec_operator isAction s
  · exact ⟨_, answers, .notDue c⟩
  · obtain ⟨rest, opened, queued, rfl⟩ := State.takeEntry_some taken
    exact ⟨t, answers, .acted c a rest t isAction opened queued acted⟩

theorem exec_scanPlacement_changes : ∃ t, exec .scanPlacement s = .next t ∧
    s.Change .scanPlacement t := by
  change ∃ t, execScanPlacement s = .next t ∧ _
  unfold execScanPlacement
  split
  next u scan waiting taken scans =>
    obtain ⟨rest, opened, queued, rfl⟩ := State.takeEntry_some taken
    refine ⟨_, rfl, ?_⟩
    dsimp only
    split
    · exact .notDue _
    · exact .scanned rest scan waiting _ opened queued scans (State.placeScan_scanned _ _ _)
  · exact ⟨s, rfl, .notDue _⟩

theorem execReadResume_changes (c : Instr) : ∃ t, execReadResume s = .next t ∧ s.Change c t := by
  unfold execReadResume
  split
  next offset chosen due free => exact ⟨_, rfl, .resumed c offset _ chosen due⟩
  · exact ⟨s, rfl, .notDue c⟩

theorem execDirectiveUnknown_changes (code : Byte) (c : Instr) :
    ∃ t, execDirectiveUnknown code s = .next t ∧ s.Change c t := by
  refine ⟨_, rfl, ?_⟩
  split
  next fetched =>
    obtain ⟨offset, due⟩ := State.fetch_due (s := s) (by simp [fetched])
    exact .refused c .unknown offset due
  · exact .notDue c

theorem execBlockTaken_changes (c : Instr) : ∃ t, execBlockTaken s = .next t ∧ s.Change c t := by
  unfold execBlockTaken
  split
  next idle _ =>
    split
    · exact ⟨_, rfl, .event c _ (.blockTaken c idle)⟩
    · exact ⟨s, rfl, .notDue c⟩
  · exact ⟨s, rfl, .notDue c⟩

theorem execChainContinuation_changes (c : Instr) :
    ∃ t, execChainContinuation s = .next t ∧ s.Change c t := by
  unfold execChainContinuation
  split
  next chained _ => exact ⟨_, rfl, .event c _ (.blockContinued c _ chained)⟩
  · exact ⟨s, rfl, .notDue c⟩

theorem execChainTimeout_changes (c : Instr) :
    ∃ t, execChainTimeout s = .next t ∧ s.Change c t := by
  unfold execChainTimeout
  split
  next chained => exact ⟨_, rfl, .event c _ (.chainAbandoned c 0 chained)⟩
  all_goals exact ⟨s, rfl, .notDue c⟩

theorem execLineCharacter_changes (x : LineChar) (c : Instr) :
    ∃ t, execLineCharacter x s = .next t ∧ s.Change c t := by
  refine ⟨_, rfl, ?_⟩
  split
  · exact .notDue c
  · cases x with
    | good b => exact .event c _ (.goodCharacter c b)
    | broken =>
      change s.Change c s.brokenCharacter
      unfold State.brokenCharacter
      split
      · exact .notDue c
      all_goals exact .event c _ (.frameFault c)

/-- An event that is due under a condition, and otherwise changes nothing. -/
theorem State.changes_ite {c : Instr} {t : State} {due : Bool} (made : s.Event c t) :
    s.Change c (if due then t else s) := by
  cases due
  · exact .notDue c
  · exact .event c t made

theorem execToneStepEnd_changes (c : Instr) : ∃ t, execToneStepEnd s = .next t ∧ s.Change c t := by
  unfold execToneStepEnd
  split
  next p _ =>
    refine ⟨_, rfl, ?_⟩
    split
    · exact .event c _ (.toneStepEnded c p)
    · exact .notDue c
  · exact ⟨s, rfl, .notDue c⟩

end

/-- The commands that are neither directives nor operator actions: scan placement, arrivals and the
events of the other units. -/
theorem exec_event_changes {c : Instr} (notDirective : directiveBody c = none)
    (notAction : operatorAction c = none) (s : State) : ∃ t, exec c s = .next t ∧ s.Change c t := by
  cases c <;> cases notDirective <;> cases notAction
  case powerUp straps => exact ⟨_, rfl, .event _ _ (.powerUp straps)⟩
  case resetnAssert => exact ⟨_, rfl, .event _ _ .resetnAssert⟩
  case resetnRelease straps => exact ⟨_, rfl, State.changes_ite (.resetnRelease straps)⟩
  case startEnd =>
    refine ⟨_, rfl, ?_⟩
    split
    · exact .event _ _ (.startEnded _ _)
    · exact .notDue _
  case lineReset => exact ⟨_, rfl, State.changes_ite .lineReset⟩
  case baseTick => exact ⟨_, rfl, State.changes_ite (.tick _)⟩
  case millisecondAdvance => exact ⟨_, rfl, State.changes_ite (.tick _)⟩
  case blinkFlip => exact ⟨_, rfl, State.changes_ite (.tick _)⟩
  case chainTimeout => exact execChainTimeout_changes _
  case lineCharacter x => exact execLineCharacter_changes x _
  case receiveGap => exact ⟨_, rfl, State.changes_ite (.frameFault _)⟩
  case frameSent =>
    refine ⟨_, rfl, ?_⟩
    split
    · exact .event _ _ (.frameGone _ _)
    · exact .notDue _
  case blockTaken => exact execBlockTaken_changes _
  case chainContinuation => exact execChainContinuation_changes _
  case directiveUnknown code => exact execDirectiveUnknown_changes code _
  case readResume => exact execReadResume_changes _
  case keyByte b => exact ⟨_, rfl, State.changes_ite (.keyByte _ b)⟩
  case wandByte b =>
    refine ⟨_, rfl, ?_⟩
    split
    · exact .notDue _
    · split
      · exact .event _ _ (.scanCompleted _)
      · exact .event _ _ (.gathered _ b)
  case scanComplete => exact ⟨_, rfl, State.changes_ite (.scanCompleted _)⟩
  case scanPlacement => exact exec_scanPlacement_changes
  case toneStepEnd => exact execToneStepEnd_changes _
  case displayRowStart =>
    refine ⟨_, rfl, ?_⟩
    split
    · exact .event _ _ (.rowStarted _)
    · exact .notDue _
  case displayRowEnd =>
    refine ⟨_, rfl, ?_⟩
    split
    · exact .event _ _ (.cellsSent _ _)
    · exact .notDue _
  case drdyWithdrawn => exact ⟨_, rfl, .event _ _ (.withdrawn _)⟩
  case lineReturnsToMark => exact ⟨_, rfl, .event _ _ (.atMark _)⟩

/-- Every command answers a next state, and it is one of those listed. -/
theorem exec_changes (c : Instr) (s : State) : ∃ t, exec c s = .next t ∧ s.Change c t := by
  cases isDirective : directiveBody c with
  | some body => exact exec_directive_changes isDirective
  | none =>
    cases isAction : operatorAction c with
    | some a => exact exec_operator_changes isAction
    | none => exact exec_event_changes isDirective isAction s

/-- What a command answers is one of the states listed. -/
theorem State.Change.of_exec {c : Instr} {s t : State} (answers : exec c s = .next t) :
    s.Change c t := by
  obtain ⟨u, same, made⟩ := exec_changes c s
  cases same.symm.trans answers
  exact made

end Sys2Proof.Machine
end

section
/-! PROOFS. What a command leaves of the queue, the entry state, the stream and the line; with it, that no
command touches the queue of commands, and that the entry state and the queues stay in step. -/

namespace Sys2Proof.Machine

open Sys2Proof

/-! ## The transmitter leaves the receive buffers (R176, R177) -/

@[simp] theorem Line.choose_buffers (l : Line) : l.choose.buffers = l.buffers := by
  unfold Line.choose
  repeat' split
  all_goals rfl

@[simp] theorem Line.queueNotice_buffers (l : Line) (n : Notice) :
    (l.queueNotice n).buffers = l.buffers := by
  unfold Line.queueNotice
  split <;> rfl

@[simp] theorem State.transmit_buffers (s : State) : s.transmit.line.buffers = s.line.buffers := by
  rw [State.transmit_line]
  split <;> simp

@[simp] theorem State.offer_buffers (s : State) (n : Notice) :
    (s.offer n).line.buffers = s.line.buffers :=
  (State.transmit_buffers _).trans (Line.queueNotice_buffers _ n)

@[simp] theorem State.claimReply_buffers (s : State) (b : List Byte) :
    (s.claimReply b).line.buffers = s.line.buffers := State.transmit_buffers _

@[simp] theorem State.fireDeadline_buffers (s : State) (i : Nat) :
    (s.fireDeadline i).line.buffers = s.line.buffers := by
  unfold State.fireDeadline
  dsimp only
  split_ifs <;> simp

@[simp] theorem State.checkDeadline_buffers (s : State) (i : Nat) :
    (s.checkDeadline i).line.buffers = s.line.buffers := by
  unfold State.checkDeadline
  split_ifs <;> simp

@[simp] theorem State.checkDeadlines_buffers (s : State) (b : Bool) :
    (s.checkDeadlines b).line.buffers = s.line.buffers :=
  s.checkDeadlines_keeps (·.line.buffers) (fun _ => rfl) State.checkDeadline_buffers b

@[simp] theorem State.buildReport_keeps (s : State) (kind key : Byte) (stamp : Clock) :
    (s.buildReport kind key stamp).input = s.input ∧
    (s.buildReport kind key stamp).stream = s.stream ∧
    (s.buildReport kind key stamp).pending = s.pending ∧
    (s.buildReport kind key stamp).line.buffers = s.line.buffers := by
  simp [State.buildReport]

/-! ## What no directive touches before its offset moves on -/

/-- The parts of the state by which commands are due: the queue of commands, the arrivals' side, the stream
state, the receive buffers, the display and the starts. -/
structure State.SameControl (s t : State) : Prop where
  pending : t.pending = s.pending
  input : t.input = s.input
  phase : t.stream.phase = s.stream.phase
  buffers : t.line.buffers = s.line.buffers
  display : t.display = s.display
  start : t.start = s.start

theorem State.buildReadReply_sameControl (s : State) (chosen : Selector) :
    s.SameControl (s.buildReadReply chosen) := by
  cases chosen <;> constructor <;>
    simp [State.buildReadReply, State.buildReport, State.buildReadAll]

theorem State.Applied.sameControl {s u : State} {d : Instr} (made : s.Applied d u) :
    s.SameControl u := by
  cases made with
  | read d chosen => exact s.buildReadReply_sameControl chosen
  | clock | deadline => constructor <;> simp
  | _ => exact ⟨rfl, rfl, rfl, rfl, rfl, rfl⟩

/-! ## The queue of commands (log 1) -/

theorem State.Acted.pending {s t : State} (made : s.Acted t) : t.pending = s.pending := by
  cases made <;> simp

theorem State.Scanned.pending {s t : State} (made : s.Scanned t) : t.pending = s.pending := by
  cases made <;> simp

theorem State.goodCharacter_line (s : State) (b : Byte) :
    ∃ l, s.goodCharacter b = { s with line := l } := by
  have fault (u : State) (n : Notice) (l : Line) :
      ∃ l', State.offer { u with line := l } n = { u with line := l' } := by
    unfold State.offer State.transmit
    split <;> exact ⟨_, rfl⟩
  unfold State.goodCharacter
  split
  · split
    · exact ⟨_, rfl⟩
    · exact ⟨s.line, rfl⟩
  · exact ⟨_, rfl⟩
  · dsimp only
    split
    · exact fault s _ _
    · exact ⟨_, rfl⟩
  · split <;> exact ⟨_, rfl⟩
  · exact ⟨_, rfl⟩
  · unfold State.judgeFrame State.storeFrame
    split
    · split
      · exact ⟨_, rfl⟩
      · exact fault s _ _
    · exact fault s _ _

theorem State.Event.pending {s t : State} {c : Instr} (made : s.Event c t) :
    t.pending = s.pending := by
  cases made with
  | goodCharacter c b =>
    obtain ⟨l, eq⟩ := State.goodCharacter_line { s with line := s.line.seenAtMark } b
    rw [eq]
  | tick => simp [State.tick, State.countTick]
  | frameGone => simp [State.frameGone]
  | lineReset => simp [State.lineResetTaken, State.startEnded]
  | startEnded => simp [State.startEnded]
  | chainAbandoned | frameFault | keyByte | scanCompleted | cellsSent | blockTaken
    | blockContinued => simp
  | powerUp | resetnAssert | resetnRelease | gathered | toneStepEnded | rowStarted | withdrawn
    | atMark => rfl

theorem State.Change.pending {s t : State} {c : Instr} (made : s.Change c t) :
    t.pending = s.pending := by
  cases made with
  | notDue | paused => rfl
  | refused => simp
  | applied d u left offset due made => simp [made.sameControl.pending]
  | resumed c offset left chosen => simp [(s.buildReadReply_sameControl chosen).pending]
  | acted c a rest t isAction opened queued made => exact made.pending
  | scanned rest scan waiting t opened queued scans made => exact made.pending
  | event c t made => exact made.pending

/-- Settles O3: every command answers one of the states listed, and each of them has the queue as it
was. -/
theorem everyCommandAnswersNext : Obligations.EveryCommandAnswersNext := by
  intro c s
  obtain ⟨t, answers, made⟩ := exec_changes c s
  exact ⟨t, answers, made.pending⟩

end Sys2Proof.Machine
end

section
/-! PROOFS. Laws of the form: what a law must withstand so that every command keeps it, and that every
command then does. The laws of the stores, of the histories, of the field table, of the cursor and of the
modified marks are of this kind. -/

namespace Sys2Proof.Machine

open Sys2Proof

/-! ## Changes of records that define nothing anew -/

/-- The change leaves the tag, the extent and the kind of every record, and sets no modified mark. -/
structure Field.Retains (g : Field → Field) : Prop extends Field.KeepsPlace g where
  kind : ∀ f, (g f).kind = f.kind
  modified : ∀ f, (g f).modified = true → f.modified = true

theorem Field.Retains.ofTag {g : Field → Field} (retains : Field.Retains g) (t : Nat) :
    Field.Retains fun f => if f.tag = t then g f else f where
  toKeepsPlace := retains.toKeepsPlace.ofTag t
  kind f := by split_ifs; exacts [retains.kind f, rfl]
  modified f := by split_ifs; exacts [retains.modified f, id]

theorem Field.keepsPlace_modified : Field.KeepsPlace fun f => { f with modified := true } :=
  ⟨fun _ => rfl, fun _ => rfl, fun _ => rfl⟩

/-- A change that leaves every record's definition leaves its tag, its extent and its kind. -/
theorem Field.MarksOnly.retains {g : Field → Field} (only : Field.MarksOnly g) : Field.Retains g where
  tag f := congrArg (·.tag) (only f).1
  start f := congrArg (·.start) (only f).1
  length f := congrArg (·.length) (only f).1
  kind f := congrArg (·.kind) (only f).1
  modified f := (only f).2

theorem Field.marksOnly_errorMark (e : Option ErrorKind) :
    Field.MarksOnly fun f => { f with errorMark := e } := fun _ => ⟨rfl, id⟩

theorem Field.marksOnly_unmodified : Field.MarksOnly fun f => { f with modified := false } :=
  fun _ => ⟨rfl, fun marked => by cases marked⟩

theorem Field.marksOnly_alert (a : Option Alert) : Field.MarksOnly fun f => { f with alert := a } :=
  fun _ => ⟨rfl, id⟩

theorem Form.tallyMarked_marksOnly (fm : Form) (f : Field) (n : NumPart) :
    Field.MarksOnly (fm.tallyMarked f n) := by
  unfold Form.tallyMarked
  cases f.sources <;> exact fun _ => ⟨rfl, id⟩

theorem Field.retains_sources (l : Option (List Nat)) :
    Field.Retains fun f => { f with sources := l } where
  tag _ := rfl
  start _ := rfl
  length _ := rfl
  kind _ := rfl
  modified _ := id

/-! ## The parts of the larger operations -/

/-- The table with a new record entered after the drop of the records in its way (R23). -/
def Form.entered (fm : Form) (f : Field) : Form :=
  let dropped := fm.dropTags ((fm.overlapped f).map (·.tag))
  { dropped with
    active := insertByStart f dropped.active
    visit := dropped.visit && !f.covers dropped.cursor }

theorem Form.define_eq (fm : Form) (second : Nat) (f : Field) : fm.define second f =
    Form.recomputeNaming
      (match f.kind with
        | .tally => (fm.entered f).recomputeTally f.tag
        | .clock => (fm.entered f).writeClock second false f
        | .entry | .fixed | .live => fm.entered f)
      (f.tag :: (fm.overlapped f).map (·.tag)) := by
  unfold Form.define Form.entered
  cases f.kind <;> rfl

/-- The form with a window opened over it, before the tallies follow (R136). -/
def Form.opened (fm : Form) (w : Window) (style : Nat) : Form :=
  { fm with
    active := fm.active.filter fun f => !w.touches f
    overlay := some
      { window := w
        savedCells := copyCells fm.cells w.positions []
        savedCursor := fm.cursor
        savedHistory := fm.history
        suspended := fm.active.filter w.touches }
    cells := fillCells { glyph := nullGlyph, style := style } w.positions fm.cells
    cursor := w.corner
    history := [] }

theorem Form.openWindow_eq (fm : Form) (w : Window) (style : Nat) : fm.openWindow w style =
    (fm.exitProcess.opened w style).recomputeNaming
      ((fm.exitProcess.active.filter w.touches).map (·.tag)) := rfl

/-- The form with its window closed, before the tallies follow (R142). -/
def Form.returned (fm : Form) (o : Overlay) : Form :=
  { fm with
    cells := copyCells o.savedCells o.window.positions fm.cells
    active := o.suspended.foldl (fun l f => insertByStart f l)
      (fm.active.filter fun f => !o.window.holds f)
    overlay := none
    cursor := o.savedCursor
    history := o.savedHistory
    visit := false }

theorem Form.closeWindow_eq (fm : Form) (o : Overlay) : fm.closeWindow o =
    (fm.exitProcess.returned (fm.exitProcess.overlay.getD o)).recomputeNaming
      ((fm.exitProcess.active.filter (fm.exitProcess.overlay.getD o).window.holds ++
        (fm.exitProcess.overlay.getD o).suspended).map (·.tag)) := rfl

/-! ## Laws that every command keeps -/

/-- An active ENTRY record has the tag. -/
def Form.holdsEntry (fm : Form) (t : Nat) : Prop := ∃ f ∈ fm.active, f.tag = t ∧ f.kind = .entry

/-- A law of the form that withstands every write of cells, every change of marks and the end of a visit. -/
structure Form.Stable (P : Form → Prop) : Prop where
  write : ∀ {fm : Form} (susp : Bool) (n p : Nat) (l : List Byte), P fm →
    P (fm.writeGlyphs susp n p l)
  records : ∀ {fm : Form} {g : Field → Field}, Field.Retains g → P fm → P (fm.mapRecords g)
  visit : ∀ {fm : Form} (b : Bool), P fm → P { fm with visit := b }

/-- A law of the form that moreover withstands the modified mark of an ENTRY record, every place of the
cursor that is a fit one, and every push on the history. -/
structure Form.Kept (P : Form → Prop) : Prop extends Form.Stable P where
  raise : ∀ {fm : Form} {t : Nat}, fm.holdsEntry t → P fm →
    P (fm.mapTag t fun g => { g with modified := true })
  cursor : ∀ {fm : Form} {p : Nat},
    (fm.lawful = true → fm.cursorLaw = true → fm.cursorFits p) → P fm → P { fm with cursor := p }
  insert : ∀ {fm : Form} (b : Bool), P fm → P { fm with insert := b }
  push : ∀ {fm : Form} (t : Nat), P fm → P { fm with history := pushHistory fm.history t }
  pop : ∀ {fm : Form} {l : List Nat}, l <:+ fm.history → P fm → P { fm with history := l }

/-- A law of the form that moreover withstands a start and the changes of the table and the window, for
records that are in order. -/
structure Form.Invariant (Sound : Field → Prop) (P : Form → Prop) : Prop extends Form.Kept P where
  reset : ∀ b : Bool, P { formReset with insert := b }
  blank : ∀ {fm : Form}, P fm → P { fm with cells := [] }
  drop : ∀ {fm : Form} (tags : List Nat), P fm → P (fm.dropTags tags)
  enter : ∀ {fm : Form} {f : Field}, Sound f → f.modified = false → fm.reachable f = true →
    fm.suspendedTag f.tag = none →
    fm.active.length - (fm.overlapped f).length + fm.suspended.length < poolSize → P fm →
    P (fm.entered f)
  opening : ∀ {fm : Form} {w : Window} (style : Nat), fm.overlay = none → w.fits = true → P fm →
    P (fm.opened w style)
  closing : ∀ {fm : Form} {o : Overlay}, fm.overlay = some o → P fm → P (fm.returned o)

section

variable {P : Form → Prop} (kept : Form.Stable P) {fm : Form}

include kept

theorem Form.Stable.writeContent (susp : Bool) (f : Field) (l : List Byte) (law : P fm) :
    P (fm.writeContent susp f l) := kept.write susp _ _ _ law

theorem Form.Stable.markTag {g : Field → Field} (only : Field.MarksOnly g) (t : Nat) (law : P fm) :
    P (fm.mapTag t g) := kept.records (only.retains.ofTag t) law

theorem Form.Stable.recomputeTally (t : Nat) (law : P fm) : P (fm.recomputeTally t) := by
  by_cases due : ∃ f susp n, fm.record t = some (f, susp) ∧ f.kind = .tally ∧ f.cls = .numeric n
  · obtain ⟨f, susp, n, held, isTally, numeric⟩ := due
    rw [Form.recomputeTally_of held isTally numeric]
    exact kept.markTag (fm.tallyMarked_marksOnly f n) t (kept.writeContent susp f _ law)
  · rwa [Form.recomputeTally_of_not fun f susp n held isTally numeric =>
      due ⟨f, susp, n, held, isTally, numeric⟩]

theorem Form.Stable.recomputeNaming (tags : List Nat) (law : P fm) : P (fm.recomputeNaming tags) := by
  rw [Form.recomputeNaming_eq]
  exact List.foldlRecOn (motive := P) _ _ law fun g ih t _ => kept.recomputeTally t ih

theorem Form.Stable.normalise (susp : Bool) (f : Field) (law : P fm) : P (fm.normalise susp f) := by
  unfold Form.normalise
  split
  · split
    · split
      · exact kept.writeContent susp f _ law
      · exact law
      · exact law
      · exact law
    · exact law
  · exact law

theorem Form.Stable.setError (t : Nat) (e : Option ErrorKind) (law : P fm) : P (fm.setError t e) :=
  kept.markTag (Field.marksOnly_errorMark e) t law

theorem Form.Stable.applyExitTest (f : Field) (law : P fm) : P (fm.applyExitTest f) := by
  unfold Form.applyExitTest
  dsimp only
  refine kept.recomputeNaming _ ?_
  split
  · exact kept.normalise false f (kept.setError f.tag _ law)
  · exact kept.setError f.tag _ law

theorem Form.Stable.exitProcess (law : P fm) : P fm.exitProcess := by
  unfold Form.exitProcess
  split
  · split
    · exact kept.visit false (kept.applyExitTest _ law)
    · exact law
  · exact law

theorem Form.Stable.hostRun (p : Nat) (cells : List Cell) (law : P fm) : P (fm.hostRun p cells).1 := by
  induction cells generalizing fm p with
  | nil => exact law
  | cons c rest ih =>
    refine ih (nextPosition p) ?_
    obtain ⟨f, _, _, eq⟩ | ⟨f, _, _, eq⟩ | ⟨_, _, eq⟩ := fm.hostCell_cases p c
    · rw [eq]
      exact kept.markTag (Field.marksOnly_collision true) f.tag law
    all_goals
      rw [eq]
      exact kept.write false c.style p [c.glyph] law

theorem Form.Stable.putText (susp : Bool) (f : Field) (glyphs : List Byte) (law : P fm) :
    P (fm.putText susp f glyphs) := by
  have rewritten (checked : Bool) (verdict : Option ErrorKind) :
      let marked := (fm.writeContent susp f (placedText f glyphs)).setError f.tag verdict
      P (if checked && verdict.isNone then marked.normalise susp f else marked) := by
    have marked := kept.setError f.tag verdict (kept.writeContent susp f (placedText f glyphs) law)
    dsimp only
    split
    · exact kept.normalise susp f marked
    · exact marked
  exact kept.recomputeNaming _
    (kept.visit _ (kept.markTag Field.marksOnly_unmodified f.tag (rewritten _ _)))

theorem Form.Stable.writeClocks (second : Nat) (due : Nat → Bool) (law : P fm) :
    P (fm.writeClocks second due) := by
  have each (susp : Bool) (l : List Field) {g : Form} (law : P g) : P (l.foldl (fun g f =>
      if f.kind = .clock && due f.length then g.writeClock second susp f else g) g) := by
    refine List.foldlRecOn (motive := P) l _ law fun h ih f _ => ?_
    split
    · exact kept.writeContent susp f _ ih
    · exact ih
  exact each true _ (each false _ law)

end

/-! ## The place of the cursor and the save area under exit processing -/

section

variable {fm fm' : Form}

theorem Form.window_eq_savedPlace (fm : Form) : fm.window = fm.savedPlace.map (·.1) := by
  unfold Form.window Form.savedPlace
  cases fm.overlay <;> rfl

theorem Form.cursorFits_iff_window {p : Nat} :
    fm.cursorFits p ↔ p < cellCount ∧ ∀ w, fm.window = some w → w.contains p = true := by
  unfold Form.cursorFits Form.window
  cases fm.overlay <;> simp

theorem Form.cursorFits_congr (window : fm'.window = fm.window) (p : Nat) :
    fm'.cursorFits p ↔ fm.cursorFits p := by
  rw [Form.cursorFits_iff_window, Form.cursorFits_iff_window, window]

theorem Form.cursorLaw_iff_savedPlace : fm.cursorLaw = true ↔
    fm.cursorFits fm.cursor ∧ ∀ place, fm.savedPlace = some place → place.2.1 < cellCount := by
  rw [Form.cursorLaw_iff]
  unfold Form.savedPlace
  cases fm.overlay <;> simp

theorem Form.cursorLaw_congr (cursor : fm'.cursor = fm.cursor)
    (place : fm'.savedPlace = fm.savedPlace) : fm'.cursorLaw = fm.cursorLaw := by
  have window : fm'.window = fm.window := by
    rw [Form.window_eq_savedPlace, Form.window_eq_savedPlace, place]
  rw [Bool.eq_iff_iff, Form.cursorLaw_iff_savedPlace, Form.cursorLaw_iff_savedPlace, cursor, place,
    Form.cursorFits_congr window]

/-- What exit processing leaves: the records' places, the cursor and the save area but for its cells
and its records' marks. -/
theorem Form.kept_savedPlace (place : Option (Window × Nat × List Nat)) :
    Form.Kept fun fm => fm.savedPlace = place where
  write susp n p l law := (Form.writeGlyphs_savedPlace _ susp n p l).trans law
  records _ law := (Form.mapRecords_savedPlace _ _).trans law
  raise _ law := (Form.mapRecords_savedPlace _ _).trans law
  cursor _ law := law
  insert _ law := law
  visit _ law := law
  push _ law := law
  pop _ law := law

theorem Form.exitProcess_savedPlace (fm : Form) : fm.exitProcess.savedPlace = fm.savedPlace :=
  (Form.kept_savedPlace fm.savedPlace).exitProcess rfl

theorem Form.exitProcess_cursorLaw (fm : Form) : fm.exitProcess.cursorLaw = fm.cursorLaw :=
  Form.cursorLaw_congr (by simp) fm.exitProcess_savedPlace

theorem Form.kept_lawful (b : Bool) : Form.Kept fun fm => fm.lawful = b where
  write susp n p l law := (Form.writeGlyphs_lawful _ susp n p l).trans law
  records retains law := (Form.mapRecords_lawful retains.toKeepsPlace).trans law
  raise {_ t} _ law :=
    (Form.mapRecords_lawful (Field.keepsPlace_modified.ofTag t)).trans law
  cursor _ law := law
  insert _ law := law
  visit _ law := law
  push _ law := law
  pop _ law := law

theorem Form.exitProcess_lawful (fm : Form) : fm.exitProcess.lawful = fm.lawful :=
  (Form.kept_lawful fm.lawful).exitProcess rfl

end

section

variable {P : Form → Prop} (kept : Form.Kept P) {fm : Form}

include kept

theorem Form.Kept.moveTo {p : Nat} (insertAtEntry push : Bool)
    (fits : fm.lawful = true → fm.cursorLaw = true → fm.cursorFits p) (law : P fm) :
    P (fm.moveTo insertAtEntry push p) := by
  obtain ⟨_, eq⟩ | ⟨_, eq⟩ := fm.moveTo_cases insertAtEntry push p
  · rw [eq]
    exact kept.cursor fits law
  · rw [eq]
    have out := kept.exitProcess law
    have pushed : P { fm.exitProcess with
        history := if push then pushLeft fm.exitProcess.history fm.current
          else fm.exitProcess.history } := by
      cases push with
      | false => exact out
      | true =>
        cases fm.current with
        | none => exact out
        | some f => exact kept.push f.tag out
    refine kept.visit false (kept.insert _ (kept.cursor (fun lawful cursorLaw => ?_) pushed))
    have lawful' : fm.lawful = true := (Form.exitProcess_lawful fm).symm.trans lawful
    have cursorLaw' : fm.cursorLaw = true := by
      rw [← Form.exitProcess_cursorLaw]
      exact cursorLaw
    exact (Form.cursorFits_congr fm.exitProcess_window p).mpr (fits lawful' cursorLaw')

theorem Form.Kept.moveNext (insertAtEntry : Bool) (law : P fm) : P (fm.moveNext insertAtEntry) :=
  kept.moveTo insertAtEntry true
    (fun lawful _ => Form.cursorFits_moveTarget (fun _ => Form.nextField_eligible) lawful) law

theorem Form.Kept.edited {f : Field} (holds : fm.holdsEntry f.tag) (law : P fm) :
    P (fm.edited f) :=
  kept.visit true (kept.raise holds law)

end

section

variable {fm : Form}

/-- A cell of an active record with a cell in the window may hold the cursor. -/
theorem Form.cursorFits_of_covers {f : Field} (active : f ∈ fm.active)
    (cursor : f.covers fm.cursor = true) {p : Nat} (covered : f.covers p = true)
    (lawful : fm.lawful = true) (cursorLaw : fm.cursorLaw = true) : fm.cursorFits p := by
  have law := Form.lawful_iff.mp lawful
  have fits := (Form.cursorLaw_iff.mp cursorLaw).1
  refine ⟨?_, fun o opened => ?_⟩
  · have placed := Field.placed_iff.mp (law.activePlaced f active)
    have := Field.covers_iff.mp covered
    simp only [cellCount]
    omega
  · exact Window.holds_iff.mp (law.holds_of_contains active opened cursor (fits.2 o opened)) p covered

end

/-- The form after a placement's candidate has been written, marked and tested (R131, R76). -/
def Form.scanMarked (fm : Form) (insertAtEntry : Bool) (f : Field) (glyphs : List Byte) : Form :=
  let entered := if fm.isCurrent f.tag then fm else fm.moveTo insertAtEntry true f.start
  ((entered.writeContent false f (candidateText f glyphs)).mapTag f.tag fun g =>
    { g with modified := true }).applyExitTest f

theorem Form.placeScan_eq (fm : Form) (insertAtEntry : Bool) (r : RoutePlace) (f : Field)
    (glyphs : List Byte) : fm.placeScan insertAtEntry r f glyphs =
      if r.advance then
        { fm.scanMarked insertAtEntry f glyphs with visit := false, cursor := f.start }.moveNext
          insertAtEntry
      else { fm.scanMarked insertAtEntry f glyphs with visit := false, cursor := f.start } := rfl

theorem Form.kept_holdsEntry (t : Nat) : Form.Kept fun fm => fm.holdsEntry t where
  write susp n p l law := by
    obtain ⟨f, active, holds⟩ := law
    exact ⟨f, by simpa using active, holds⟩
  records {_ g} retains law := by
    obtain ⟨f, active, tag, entry⟩ := law
    exact ⟨g f, List.mem_map_of_mem active, (retains.tag f).trans tag, (retains.kind f).trans entry⟩
  raise {_ u} _ law := by
    obtain ⟨f, active, tag, entry⟩ := law
    refine ⟨_, List.mem_map_of_mem active, ?_, ?_⟩
    all_goals split_ifs <;> assumption
  cursor _ law := law
  insert _ law := law
  visit _ law := law
  push _ law := law
  pop _ law := law

section

variable {P : Form → Prop} (kept : Form.Kept P) {fm : Form}

include kept

/-- The advance after a CHAR, on a form whose record is still the current one (R112 step 6, R118). -/
theorem Form.Kept.advance {f : Field} (insertAtEntry : Bool)
    (fits : ∀ p, f.covers p = true → fm.lawful = true → fm.cursorLaw = true → fm.cursorFits p)
    (covered : f.covers fm.cursor = true) (law : P fm) : P (fm.advance insertAtEntry f) := by
  unfold Form.advance
  split
  next inside =>
    refine kept.cursor (fits _ ?_) law
    rw [Field.covers_iff] at covered ⊢
    unfold Field.lastCell at inside
    omega
  · split
    · exact kept.moveNext insertAtEntry law
    · exact law

/-- The sweep stopped at a field (R149, R150). -/
theorem Form.Kept.sweepRefused {f : Field} (insertAtEntry : Bool) (eligible : f ∈ fm.eligible)
    (law : P fm) : P (fm.sweepRefused insertAtEntry f) := by
  obtain ⟨active, _, reachable⟩ := Form.mem_eligible.mp eligible
  have fits : fm.lawful = true → fm.cursorLaw = true → fm.cursorFits f.start := fun lawful _ =>
    Form.cursorFits_start lawful active reachable
  unfold Form.sweepRefused
  dsimp only
  split
  · exact kept.moveTo insertAtEntry false fits law
  · have marked := (Form.kept_lawful fm.lawful).recomputeNaming [f.tag]
      ((Form.kept_lawful fm.lawful).setError f.tag (fm.sweepFault f) rfl)
    refine kept.moveTo insertAtEntry false (fun lawful _ => ?_)
      (kept.recomputeNaming _ (kept.setError f.tag _ law))
    rw [Form.cursorFits_congr (fm := fm) (by simp [Form.setError, Form.mapTag])]
    exact Form.cursorFits_start (marked.symm.trans lawful) active reachable

/-- A candidate placed, up to its exit test (R131, R76). -/
theorem Form.Kept.scanMarked {f : Field} (insertAtEntry : Bool) (glyphs : List Byte)
    (active : f ∈ fm.active) (entry : f.kind = .entry) (reachable : fm.reachable f = true)
    (law : P fm) : P (fm.scanMarked insertAtEntry f glyphs) := by
  have fits : fm.lawful = true → fm.cursorLaw = true → fm.cursorFits f.start := fun lawful _ =>
    Form.cursorFits_start lawful active reachable
  unfold Form.scanMarked
  have entered {Q : Form → Prop} (kept : Form.Kept Q) (law : Q fm) : Q
      ((if fm.isCurrent f.tag then fm else fm.moveTo insertAtEntry true f.start).writeContent false f
        (candidateText f glyphs)) := by
    refine kept.writeContent false f _ ?_
    split
    · exact law
    · exact kept.moveTo insertAtEntry true fits law
  exact kept.applyExitTest f (kept.raise (entered (Form.kept_holdsEntry f.tag) ⟨f, active, rfl, entry⟩)
    (entered kept law))

theorem Form.Kept.placeScan {f : Field} (insertAtEntry : Bool) (r : RoutePlace) (glyphs : List Byte)
    (active : f ∈ fm.active) (entry : f.kind = .entry) (reachable : fm.reachable f = true)
    (law : P fm) : P (fm.placeScan insertAtEntry r f glyphs) := by
  have marked {Q : Form → Prop} (kept : Form.Kept Q) (law : Q fm) :=
    kept.scanMarked insertAtEntry glyphs active entry reachable law
  have standing : P { fm.scanMarked insertAtEntry f glyphs with visit := false, cursor := f.start } := by
    refine kept.visit false (kept.cursor (p := f.start) (fun lawful _ => ?_) (marked kept law))
    have place := marked (Form.kept_savedPlace fm.savedPlace) rfl
    rw [Form.cursorFits_congr (fm := fm) (by rw [Form.window_eq_savedPlace, place,
      ← Form.window_eq_savedPlace])]
    exact Form.cursorFits_start ((marked (Form.kept_lawful fm.lawful) rfl).symm.trans lawful) active
      reachable
  rw [Form.placeScan_eq]
  split
  · exact kept.moveNext insertAtEntry standing
  · exact standing

end

end Sys2Proof.Machine
end

section
/-! PROOFS. Every command keeps every law of the form: the operator's actions, the scans, the directives
and the events, one case for each thing they can make of the state. -/

namespace Sys2Proof.Machine

open Sys2Proof

section

variable {P : Form → Prop} {s t : State}

/-- The record of the current ENTRY field is an active ENTRY record of its tag. -/
theorem Form.holdsEntry_of_entryField {fm : Form} {f : Field} (entry : fm.entryField = some f) :
    fm.holdsEntry f.tag := by
  obtain ⟨current, kind⟩ := Form.entryField_iff.mp entry
  exact ⟨f, (Form.mem_active_of_fieldAt current).1, rfl, kind⟩

theorem Form.mem_active_of_entryField {fm : Form} {f : Field} (entry : fm.entryField = some f) :
    f ∈ fm.active :=
  (Form.mem_active_of_fieldAt (Form.entryField_iff.mp entry).1).1

/-- An edit of the current field up to the place of the cursor (R112 to R115). -/
theorem Form.Kept.editedFrom (kept : Form.Kept P) {fm : Form} {f : Field}
    (entry : fm.entryField = some f) (offset : Nat) (glyphs : List Byte) (law : P fm) :
    P ((fm.writeFrom false f offset glyphs).edited f) :=
  kept.edited ((Form.kept_holdsEntry f.tag).write _ _ _ _ (Form.holdsEntry_of_entryField entry))
    (kept.write _ _ _ _ law)

/-- After an edit the cursor may stand in the whole of the edited field. -/
theorem Form.cursorFits_editedFrom {fm : Form} {f : Field} (entry : fm.entryField = some f)
    (offset : Nat) (glyphs : List Byte) {p : Nat} (covered : f.covers p = true) :
    let edited := (fm.writeFrom false f offset glyphs).edited f
    edited.lawful = true → edited.cursorLaw = true → edited.cursorFits p := by
  intro edited lawful cursorLaw
  have lawful' := (Form.kept_lawful fm.lawful).editedFrom entry offset glyphs rfl
  have place := (Form.kept_savedPlace fm.savedPlace).editedFrom entry offset glyphs rfl
  have cursor : edited.cursor = fm.cursor := by
    simp [edited, Form.edited, Form.mapTag, Form.writeFrom]
  have window : edited.window = fm.window := by
    rw [Form.window_eq_savedPlace, place, ← Form.window_eq_savedPlace]
  rw [Form.cursorFits_congr window]
  exact Form.cursorFits_of_covers (Form.mem_active_of_entryField entry)
    (Form.covers_cursor_of_entryField entry) covered (lawful'.symm.trans lawful)
    ((Form.cursorLaw_congr cursor place).symm.trans cursorLaw)

theorem State.Acted.keeps (kept : Form.Kept P) (made : s.Acted t) (law : P s.form) : P t.form := by
  cases made with
  | refused => simpa using law
  | unchanged => exact law
  | moved push p fits => exact kept.moveTo _ push fits law
  | back left f rest active reachable =>
    exact kept.moveTo _ false (fun lawful _ => Form.cursorFits_start lawful active reachable)
      (kept.pop rest law)
  | backRefused =>
    rw [State.keyRefused_form]
    exact kept.pop (List.nil_suffix) law
  | char f offset glyphs tone entry =>
    refine kept.advance _ (fun p covered => Form.cursorFits_editedFrom entry offset glyphs covered) ?_
      (kept.editedFrom entry offset glyphs law)
    have cursor : ((s.form.writeFrom false f offset glyphs).edited f).cursor = s.form.cursor := by
      simp [Form.edited, Form.mapTag, Form.writeFrom]
    rw [cursor]
    exact Form.covers_cursor_of_entryField entry
  | edited f offset glyphs p entry inside =>
    exact kept.cursor (Form.cursorFits_editedFrom entry offset glyphs inside)
      (kept.editedFrom entry offset glyphs law)
  | insertToggle => exact kept.insert _ law
  | stepped f glyphs entry =>
    exact kept.recomputeNaming _ (kept.setError _ _ (kept.editedFrom entry 0 glyphs law))
  | submitRefused f swept =>
    rw [State.keyRefused_form]
    exact kept.sweepRefused _ swept (kept.exitProcess law)
  | submitted key =>
    rw [State.submitAccepted_form, State.buildReport, State.claimReply_form]
    exact kept.records (Field.MarksOnly.retains fun f => by split_ifs <;> exact ⟨rfl, id⟩)
      (kept.exitProcess law)
  | cancelled bytes => simpa using law

theorem State.Scanned.keeps (kept : Form.Kept P) (made : s.Scanned t) (law : P s.form) :
    P t.form := by
  cases made with
  | refused => exact law
  | placed r f glyphs active entry reachable =>
    exact kept.placeScan _ r glyphs active entry reachable law
  | sweptOff r f g glyphs active entry reachable swept =>
    exact kept.sweepRefused _ swept
      (kept.exitProcess (kept.placeScan _ r glyphs active entry reachable law))
  | submitted r f glyphs key active entry reachable =>
    rw [State.submitAccepted_form, State.buildReport, State.claimReply_form]
    exact kept.records (Field.MarksOnly.retains fun f => by split_ifs <;> exact ⟨rfl, id⟩)
      (kept.exitProcess (kept.placeScan _ r glyphs active entry reachable law))

theorem State.fireDeadline_form (s : State) (i : Nat) : (s.fireDeadline i).form =
    if (s.clock.deadline i).tag = 0 then s.form
    else s.form.mapTag (s.clock.deadline i).tag fun f =>
      { f with alert := some { style := (s.clock.deadline i).style, index := i } } := by
  unfold State.fireDeadline
  dsimp only
  split_ifs <;> simp

theorem Form.Stable.checkDeadline (kept : Form.Stable P) (i : Nat) (law : P s.form) :
    P (s.checkDeadline i).form := by
  obtain ⟨_, eq⟩ | ⟨_, eq⟩ := s.checkDeadline_cases i
  · rw [eq, State.fireDeadline_form]
    split
    · exact law
    · exact kept.markTag (Field.marksOnly_alert _) _ law
  · rwa [eq]

theorem Form.Stable.checkDeadlines (kept : Form.Stable P) (b : Bool) (law : P s.form) :
    P (s.checkDeadlines b).form := by
  unfold State.checkDeadlines
  refine List.foldlRecOn (motive := fun u : State => P u.form) _ _ ?_
    fun u ih i _ => kept.checkDeadline i ih
  split
  · exact law
  · exact law

theorem State.buildReadReply_keeps (kept : Form.Stable P) (chosen : Selector) (law : P s.form) :
    P (s.buildReadReply chosen).form := by
  cases chosen with
  | modified =>
    rw [State.buildReadReply, State.buildReport, State.claimReply_form]
    exact kept.records (Field.MarksOnly.retains fun f => by split_ifs <;> exact ⟨rfl, id⟩) law
  | all =>
    rw [State.buildReadReply, State.buildReadAll, State.claimReply_form]
    exact kept.records (Field.marksOnly_collision false).retains law
  | screen => simpa [State.buildReadReply] using law
  | status => simpa [State.buildReadReply] using law

theorem Form.Stable.advanceMillisecond (kept : Form.Stable P) (law : P s.form) :
    P s.advanceMillisecond.form := by
  unfold State.advanceMillisecond
  dsimp only
  split
  · exact law
  · refine kept.checkDeadlines (s := { s with clock := _, form := _ }) _ ?_
    dsimp only
    exact kept.writeClocks _ _ law

theorem Form.Stable.tick (kept : Form.Stable P) (law : P s.form) : P s.tick.form := by
  have counted : s.countTick.form = s.form := by rw [State.countTick]
  unfold State.tick State.accumulate
  rw [← counted] at law
  generalize s.countTick = u at law
  dsimp only
  split
  · exact kept.advanceMillisecond (s := { u with clock := _ }) law
  · exact law

theorem Form.Invariant.define {Sound : Field → Prop} (kept : Form.Invariant Sound P) {fm : Form}
    {f : Field} (sound : Sound f) (unmodified : f.modified = false)
    (reachable : fm.reachable f = true) (unsuspended : fm.suspendedTag f.tag = none)
    (room : fm.active.length - (fm.overlapped f).length + fm.suspended.length < poolSize)
    (second : Nat) (law : P fm) : P (fm.define second f) := by
  have entered := kept.enter sound unmodified reachable unsuspended room law
  rw [Form.define_eq]
  refine kept.recomputeNaming _ ?_
  split
  · exact kept.recomputeTally _ entered
  · exact kept.writeContent false f _ entered
  all_goals exact entered

theorem Form.Invariant.applied {Sound : Field → Prop} (kept : Form.Invariant Sound P) {d : Instr}
    (sound : ∀ a f, fieldRecord a s.stream.writePos = .ok f → Sound f ∧ f.modified = false)
    (made : s.Applied d t) (law : P s.form) : P t.form := by
  cases made with
  | writePos | style | tables | rate | tone => exact law
  | run d cells => exact kept.recomputeNaming _ (kept.hostRun _ cells law)
  | cleared => exact kept.reset _
  | cursor d p exits fits => exact kept.moveTo _ false (fun lawful _ => fits lawful) law
  | field args f asked reachable unsuspended unmodified room =>
    obtain ⟨sound, unmarked⟩ := sound args f asked
    exact kept.define sound unmarked reachable unsuspended room _ law
  | sources tally tags f susp held isTally =>
    exact kept.recomputeTally _ (kept.records ((Field.retains_sources _).ofTag _) law)
  | dropped tag => exact kept.recomputeNaming _ (kept.drop _ law)
  | put tag force glyphs f susp held due => exact kept.putText susp f glyphs law
  | marks d g only => exact kept.records only.retains law
  | opened top left height width style w closed fits =>
    have closed' : s.form.exitProcess.overlay = none := by
      have := s.form.exitProcess_window
      rw [Form.window, Form.window, closed] at this
      simpa using this
    exact kept.recomputeNaming _ (kept.opening _ closed' fits (kept.exitProcess law))
  | closed discard o opened due =>
    obtain ⟨o', opened'⟩ : ∃ o', s.form.exitProcess.overlay = some o' := by
      have := s.form.exitProcess_window
      rw [Form.window, Form.window, opened] at this
      obtain ⟨o', opened', _⟩ := Option.map_eq_some_iff.mp this
      exact ⟨o', opened'⟩
    change P (s.form.closeWindow o)
    rw [Form.closeWindow_eq, opened', Option.getD_some]
    exact kept.recomputeNaming _ (kept.closing opened' (kept.exitProcess law))
  | clock d day second ms =>
    refine kept.checkDeadlines (s := { s with clock := _, form := _ }) _ ?_
    dsimp only
    exact kept.writeClocks _ _ law
  | deadline d i x => exact kept.checkDeadline i law
  | deadlineOff d i x => exact kept.records (Field.marksOnly_alertOff i).retains law
  | read d chosen => exact State.buildReadReply_keeps kept.toStable chosen law

theorem Form.Invariant.event {Sound : Field → Prop} (kept : Form.Invariant Sound P) {c : Instr}
    (made : s.Event c t) (law : P s.form) : P t.form := by
  cases made with
  | powerUp | resetnAssert => exact kept.reset false
  | resetnRelease => exact kept.blank law
  | lineReset =>
    rw [State.lineResetTaken, State.startEnded, State.offer_form]
    exact kept.reset false
  | tick => exact kept.tick law
  | goodCharacter c b =>
    obtain ⟨l, eq⟩ := State.goodCharacter_line { s with line := s.line.seenAtMark } b
    rwa [eq]
  | startEnded => simpa [State.startEnded] using law
  | frameGone => simpa [State.frameGone] using law
  | chainAbandoned | frameFault | keyByte | scanCompleted | cellsSent | blockTaken
    | blockContinued => simpa using law
  | gathered | toneStepEnded | rowStarted | withdrawn | atMark => exact law

/-- A law of the form that withstands the listed changes is kept by every command. -/
theorem Form.Invariant.change {Sound : Field → Prop} (kept : Form.Invariant Sound P) {c : Instr}
    (sound : ∀ a f, fieldRecord a s.stream.writePos = .ok f → Sound f ∧ f.modified = false)
    (made : s.Change c t) (law : P s.form) : P t.form := by
  cases made with
  | notDue | paused => exact law
  | refused => simpa using law
  | applied d u left offset due made =>
    rw [State.reachOffset_form]
    exact kept.applied sound made law
  | resumed c offset left chosen =>
    rw [State.reachOffset_form]
    exact State.buildReadReply_keeps kept.toStable chosen law
  | acted c a rest t isAction opened queued made => exact made.keeps kept.toKept law
  | scanned rest scan waiting t opened queued scans made => exact made.keeps kept.toKept law
  | event c t made => exact kept.event made law

end

/-- What a step does: a command of the queue, or the next cell of a row (logs 1, 2). -/
theorem step_cases {s t : State} (stepped : step s = .next t) :
    (s.pending = [] ∧ t = s.sendCell) ∨
    ∃ c rest, s.pending = c :: rest ∧ State.Change { s with pending := rest } c t := by
  unfold step at stepped
  split at stepped
  next idle =>
    cases stepped
    exact .inl ⟨idle, rfl⟩
  next c rest queued => exact .inr ⟨c, rest, queued, .of_exec stepped⟩

/-- A law of the form that withstands the listed changes is kept by every step. -/
theorem Form.Invariant.step {P : Form → Prop} {Sound : Field → Prop} (kept : Form.Invariant Sound P)
    {s t : State}
    (sound : ∀ a f, fieldRecord a s.stream.writePos = .ok f → Sound f ∧ f.modified = false)
    (stepped : step s = .next t) (law : P s.form) : P t.form := by
  obtain ⟨_, rfl⟩ | ⟨c, rest, _, made⟩ := step_cases stepped
  · rwa [State.sendCell_form]
  · exact kept.change (s := { s with pending := rest }) sound made law

end Sys2Proof.Machine
end

section
/-! PROOFS. What a FIELD directive asks for: its argument checks in their order, and the record that passes
them (R22). -/

namespace Sys2Proof.Machine

open Sys2Proof

/-- The record that the arguments of a FIELD directive describe at a write position. -/
def recordAt (a : FieldArgs) (w : Nat) (kind : Kind) (cls : FieldClass) : Field :=
  { tag := a.tag.toNat, start := w, length := a.length.toNat, kind := kind, cls := cls,
    opts := fieldOptionsOf a.options, normal := a.normal.toNat, edit := a.edit.toNat,
    error := a.error.toNat, next := if a.next = 0 then none else some a.next.toNat, sources := none,
    modified := false, collision := false, errorMark := none, alert := none, incomplete := false,
    saturated := false }

section

variable {a : FieldArgs} {w : Nat}

theorem fieldRecord_of_tag (bad : a.tag = 0 ∨ 250 < a.tag.toNat) : fieldRecord a w = .error .tag :=
  if_pos bad

variable (tag : ¬(a.tag = 0 ∨ 250 < a.tag.toNat))

include tag

theorem fieldRecord_of_extent (bad : a.length = 0 ∨ 96 < w % 96 + a.length.toNat) :
    fieldRecord a w = .error .range := by
  refine (if_neg tag).trans (if_pos ?_)
  obtain zero | long := bad
  · simp [zero]
  · exact .inr (.inr long)

variable (extent : ¬(a.length = 0 ∨ 96 < w % 96 + a.length.toNat))

include extent

theorem fieldRecord_eq_match : fieldRecord a w =
    (kindOf a.kind).elim (.error .format) fun kind =>
      if ¬kindClassAgree kind a.length.toNat a.cls.toNat a.part then .error .format
      else (classOf kind a.length.toNat a.cls a.part).bind fun cls =>
        if 15 < a.normal.toNat ∨ 15 < a.edit.toNat ∨ 15 < a.error.toNat then .error .range
        else if lastTag < a.next.toNat then .error .tag
        else .ok (recordAt a w kind cls) := by
  have nonzero : a.length.toNat ≠ 0 := fun zero => extent (.inl (BitVec.eq_of_toNat_eq zero))
  have inRow : ¬(a.length.toNat = 0 ∨ 96 < a.length.toNat ∨ 96 < w % 96 + a.length.toNat) := by
    rw [not_or] at extent
    omega
  refine (if_neg tag).trans ((if_neg inRow).trans ?_)
  cases kindOf a.kind with
  | none => rfl
  | some kind =>
    dsimp only [Option.elim_some]
    cases kindClassAgree kind a.length.toNat a.cls.toNat a.part with
    | false => rfl
    | true => cases classOf kind a.length.toNat a.cls a.part <;> rfl

theorem fieldRecord_of_kind (bad : kindOf a.kind = none) : fieldRecord a w = .error .format := by
  rw [fieldRecord_eq_match tag extent, bad, Option.elim_none]

variable {kind : Kind} (isKind : kindOf a.kind = some kind)

include isKind

theorem fieldRecord_of_disagree
    (bad : kindClassAgree kind a.length.toNat a.cls.toNat a.part = false) :
    fieldRecord a w = .error .format := by
  rw [fieldRecord_eq_match tag extent, isKind, Option.elim_some, if_pos (by simp [bad])]

variable (agree : kindClassAgree kind a.length.toNat a.cls.toNat a.part = true)

include agree

theorem fieldRecord_of_classError {e : DirError}
    (bad : classOf kind a.length.toNat a.cls a.part = .error e) : fieldRecord a w = .error e := by
  rw [fieldRecord_eq_match tag extent, isKind, Option.elim_some, if_neg (by simp [agree]), bad]
  rfl

variable {cls : FieldClass} (isClass : classOf kind a.length.toNat a.cls a.part = .ok cls)

include isClass

theorem fieldRecord_of_class : fieldRecord a w =
    if 15 < a.normal.toNat ∨ 15 < a.edit.toNat ∨ 15 < a.error.toNat then .error .range
    else if 250 < a.next.toNat then .error .tag
    else .ok (recordAt a w kind cls) := by
  rw [fieldRecord_eq_match tag extent, isKind, Option.elim_some, if_neg (by simp [agree]), isClass]
  rfl

end

/-- Arguments that pass give the record they describe, in one row. -/
theorem fieldRecord_ok {a : FieldArgs} {w : Nat} {f : Field} (asked : fieldRecord a w = .ok f) :
    a.length ≠ 0 ∧ w % 96 + a.length.toNat ≤ 96 ∧
      ∃ kind cls, kindOf a.kind = some kind ∧
        kindClassAgree kind a.length.toNat a.cls.toNat a.part = true ∧
        classOf kind a.length.toNat a.cls a.part = .ok cls ∧ f = recordAt a w kind cls := by
  by_cases tag : a.tag = 0 ∨ 250 < a.tag.toNat
  · rw [fieldRecord_of_tag tag] at asked
    cases asked
  by_cases extent : a.length = 0 ∨ 96 < w % 96 + a.length.toNat
  · rw [fieldRecord_of_extent tag extent] at asked
    cases asked
  obtain ⟨nonzero, inRow⟩ := not_or.mp extent
  refine ⟨nonzero, Nat.le_of_not_lt inRow, ?_⟩
  cases isKind : kindOf a.kind with
  | none =>
    rw [fieldRecord_of_kind tag extent isKind] at asked
    cases asked
  | some kind =>
    cases agree : kindClassAgree kind a.length.toNat a.cls.toNat a.part with
    | false =>
      rw [fieldRecord_of_disagree tag extent isKind agree] at asked
      cases asked
    | true =>
      cases isClass : classOf kind a.length.toNat a.cls a.part with
      | error e =>
        rw [fieldRecord_of_classError tag extent isKind agree isClass] at asked
        cases asked
      | ok cls =>
        rw [fieldRecord_of_class tag extent isKind agree isClass] at asked
        split_ifs at asked
        cases asked
        exact ⟨kind, cls, rfl, agree, isClass, rfl⟩

/-- What FIELD asks for is a record of one row, unmodified (R17, R22). -/
theorem fieldRecord_sound {a : FieldArgs} {w : Nat} {f : Field} (inStore : w < cellCount)
    (asked : fieldRecord a w = .ok f) : f.placed = true ∧ f.modified = false := by
  obtain ⟨nonzero, inRow, kind, cls, _, _, _, rfl⟩ := fieldRecord_ok asked
  have : a.length.toNat ≠ 0 := fun zero => nonzero (BitVec.eq_of_toNat_eq zero)
  refine ⟨Field.placed_iff.mpr ?_, rfl⟩
  simp only [recordAt, cellCount] at *
  omega

end Sys2Proof.Machine
end

section
/-! PROOFS. The laws of the stores, the histories, the field table, the cursor and the modified marks are
laws that every command keeps. -/

namespace Sys2Proof.Machine

open Sys2Proof

/-! ## The stores -/

theorem Form.invariant_storeLaw : Form.Invariant (fun _ => True) fun fm => fm.storeLaw = true where
  write susp n p l law := Form.writeGlyphs_storeLaw law susp n p l
  records _ law := by rwa [Form.mapRecords_storeLaw]
  raise _ law := by rwa [Form.mapTag, Form.mapRecords_storeLaw]
  cursor _ law := law
  insert _ law := law
  visit _ law := law
  push _ law := law
  pop _ law := law
  reset _ := rfl
  blank law := Form.storeLaw_iff.mpr ⟨rfl, (Form.storeLaw_iff.mp law).2⟩
  drop {fm} tags law := by
    obtain ⟨screen, saved⟩ := Form.storeLaw_iff.mp law
    refine Form.storeLaw_iff.mpr ⟨screen, fun o opened => ?_⟩
    obtain ⟨o', opened', rfl⟩ := Option.map_eq_some_iff.mp opened
    exact saved o' opened'
  enter {fm f} _ _ _ _ _ law := by
    obtain ⟨screen, saved⟩ := Form.storeLaw_iff.mp law
    refine Form.storeLaw_iff.mpr ⟨screen, fun o opened => ?_⟩
    obtain ⟨o', opened', rfl⟩ := Option.map_eq_some_iff.mp opened
    exact saved o' opened'
  opening style _ _ law := by
    obtain ⟨screen, _⟩ := Form.storeLaw_iff.mp law
    refine Form.storeLaw_iff.mpr ⟨fillCells_wf _ _ _ screen, ?_⟩
    rintro o ⟨⟩
    exact copyCells_wf _ _ _ rfl
  closing _ law := by
    obtain ⟨screen, _⟩ := Form.storeLaw_iff.mp law
    refine Form.storeLaw_iff.mpr ⟨copyCells_wf _ _ _ screen, ?_⟩
    rintro o ⟨⟩

/-! ## The field histories (R99, R110) -/

theorem noneAdjacent_iff (l : List Nat) : noneAdjacent l = true ↔ l.IsChain (· ≠ ·) := by
  induction l with
  | nil => simp [noneAdjacent]
  | cons a rest ih =>
    cases rest with
    | nil => simp [noneAdjacent]
    | cons b rest =>
      rw [noneAdjacent, Bool.and_eq_true, ih, List.isChain_cons_cons, decide_eq_true_iff]

theorem historyLaw_iff {l : List Nat} :
    historyLaw l = true ↔ l.length ≤ 8 ∧ l.IsChain (· ≠ ·) := by
  rw [historyLaw, Bool.and_eq_true, decide_eq_true_iff, noneAdjacent_iff]

theorem pushHistory_historyLaw {l : List Nat} (law : historyLaw l = true) (t : Nat) :
    historyLaw (pushHistory l t) = true := by
  obtain ⟨_, differ⟩ := historyLaw_iff.mp law
  unfold pushHistory
  split
  · exact law
  next other =>
    refine historyLaw_iff.mpr ⟨List.length_take_le _ _, List.IsChain.prefix ?_ (List.take_prefix _ _)⟩
    cases l with
    | nil => simp
    | cons a rest =>
      refine List.isChain_cons_cons.mpr ⟨fun same => other ?_, differ⟩
      rw [List.head?_cons, same]

theorem historyLaw_of_suffix {l l' : List Nat} (suffix : l' <:+ l) (law : historyLaw l = true) :
    historyLaw l' = true := by
  obtain ⟨room, differ⟩ := historyLaw_iff.mp law
  exact historyLaw_iff.mpr ⟨suffix.length_le.trans room, differ.suffix suffix⟩

/-- Both histories are as R99 and R110 have them. -/
def Form.historiesLaw (fm : Form) : Prop :=
  historyLaw fm.history = true ∧ ∀ place, fm.savedPlace = some place → historyLaw place.2.2 = true

theorem Form.savedPlace_eq_some_iff {fm : Form} {place : Window × Nat × List Nat} :
    fm.savedPlace = some place ↔
      ∃ o, fm.overlay = some o ∧ (o.window, o.savedCursor, o.savedHistory) = place := by
  rw [Form.savedPlace, Option.map_eq_some_iff]

theorem Form.dropTags_savedPlace (fm : Form) (tags : List Nat) :
    (fm.dropTags tags).savedPlace = fm.savedPlace := by
  unfold Form.dropTags Form.savedPlace
  cases fm.overlay <;> rfl

theorem Form.entered_savedPlace (fm : Form) (f : Field) : (fm.entered f).savedPlace = fm.savedPlace :=
  Form.dropTags_savedPlace fm _

theorem Form.invariant_historiesLaw : Form.Invariant (fun _ => True) Form.historiesLaw where
  write susp n p l law := by
    rwa [Form.historiesLaw, Form.writeGlyphs_history, Form.writeGlyphs_savedPlace]
  records _ law := by rwa [Form.historiesLaw, Form.mapRecords_history, Form.mapRecords_savedPlace]
  raise _ law := by
    rwa [Form.mapTag, Form.historiesLaw, Form.mapRecords_history, Form.mapRecords_savedPlace]
  cursor _ law := law
  insert _ law := law
  visit _ law := law
  push t law := ⟨pushHistory_historyLaw law.1 t, law.2⟩
  pop suffix law := ⟨historyLaw_of_suffix suffix law.1, law.2⟩
  reset _ := ⟨rfl, by rintro _ ⟨⟩⟩
  blank law := law
  drop {fm} tags law := ⟨law.1, by rw [Form.dropTags_savedPlace]; exact law.2⟩
  enter {fm f} _ _ _ _ _ law := ⟨law.1, by rw [Form.entered_savedPlace]; exact law.2⟩
  opening {fm w} style _ _ law := by
    refine ⟨rfl, ?_⟩
    rintro _ ⟨⟩
    exact law.1
  closing {fm o} opened law := by
    refine ⟨law.2 _ (Form.savedPlace_eq_some_iff.mpr ⟨o, opened, rfl⟩), ?_⟩
    rintro _ ⟨⟩

/-! ## Records in position order (R20, R21) -/

theorem insertByStart_perm (f : Field) (l : List Field) : (insertByStart f l).Perm (f :: l) := by
  induction l with
  | nil => exact .refl _
  | cons g rest ih =>
    rw [insertByStart]
    split_ifs
    · exact .refl _
    · exact (ih.cons g).trans (.swap f g rest)

theorem mem_insertByStart {f g : Field} {l : List Field} :
    g ∈ insertByStart f l ↔ g = f ∨ g ∈ l := by
  rw [(insertByStart_perm f l).mem_iff, List.mem_cons]

theorem foldl_insertByStart_perm (l records : List Field) :
    (l.foldl (fun r f => insertByStart f r) records).Perm (l ++ records) := by
  induction l generalizing records with
  | nil => exact .refl _
  | cons f rest ih =>
    refine (ih _).trans (((insertByStart_perm f records).append_left rest).trans ?_)
    exact List.perm_middle

theorem Field.precedes_trans {f g h : Field} (fg : f.precedes g = true) (gh : g.precedes h = true) :
    f.precedes h = true := by
  rw [Field.precedes_iff] at *
  omega

/-- A record that lies apart from the records of an ordered list enters it in order. -/
theorem insertByStart_order {f : Field} {l : List Field}
    (order : l.Pairwise fun g h => g.precedes h = true) (placed : f.placed = true)
    (others : ∀ g ∈ l, g.placed = true ∧ f.apart g = true) :
    (insertByStart f l).Pairwise fun g h => g.precedes h = true := by
  have fSize := (Field.placed_iff.mp placed).1
  induction l with
  | nil => exact List.pairwise_singleton _ _
  | cons g rest ih =>
    obtain ⟨after, order'⟩ := List.pairwise_cons.mp order
    obtain ⟨gPlaced, apart⟩ := others g (List.mem_cons_self ..)
    have gSize := (Field.placed_iff.mp gPlaced).1
    rw [Field.apart_iff] at apart
    rw [insertByStart]
    split_ifs with before
    · have first : f.precedes g = true := by
        rw [Field.precedes_iff]
        omega
      refine List.pairwise_cons.mpr ⟨fun h mem => ?_, order⟩
      obtain rfl | mem := List.mem_cons.mp mem
      · exact first
      · exact Field.precedes_trans first (after h mem)
    · refine List.pairwise_cons.mpr
        ⟨fun h mem => ?_, ih order' fun h mem => others h (List.mem_cons_of_mem g mem)⟩
      obtain rfl | mem := mem_insertByStart.mp mem
      · rw [Field.precedes_iff]
        omega
      · exact after h mem

theorem foldl_insertByStart_order {l records : List Field}
    (order : records.Pairwise fun g h => g.precedes h = true)
    (order' : l.Pairwise fun g h => g.precedes h = true)
    (placed : ∀ f ∈ l ++ records, f.placed = true)
    (apart : ∀ f ∈ l, ∀ g ∈ records, f.apart g = true) :
    (l.foldl (fun r f => insertByStart f r) records).Pairwise fun g h => g.precedes h = true := by
  induction l generalizing records with
  | nil => exact order
  | cons f rest ih =>
    obtain ⟨after, order'⟩ := List.pairwise_cons.mp order'
    refine ih (insertByStart_order order (placed f (by simp)) fun g mem =>
      ⟨placed g (by simp [mem]), apart f (by simp) g mem⟩) order' ?_ ?_
    · intro g mem
      refine placed g ?_
      obtain mem | mem := List.mem_append.mp mem
      · simp [mem]
      · obtain rfl | mem := mem_insertByStart.mp mem
        · simp
        · simp [mem]
    · intro g mem h mem'
      obtain rfl | mem' := mem_insertByStart.mp mem'
      · rw [Field.apart_comm, Field.apart_iff, ← Field.precedes_iff]
        exact .inl (after g mem)
      · exact apart g (by simp [mem]) h mem'

/-! ## The law of the field table -/

section

variable {fm : Form}

theorem Form.dropTags_active (tags : List Nat) :
    (fm.dropTags tags).active = fm.active.filter fun f => !tags.contains f.tag := rfl

theorem Form.dropTags_suspended (tags : List Nat) :
    (fm.dropTags tags).suspended = fm.suspended.filter fun f => !tags.contains f.tag := by
  unfold Form.dropTags Form.suspended
  cases fm.overlay <;> rfl

theorem Form.Lawful.dropTags (law : fm.Lawful) (tags : List Nat) : (fm.dropTags tags).Lawful where
  activePlaced f mem := law.activePlaced f (List.mem_of_mem_filter mem)
  suspendedPlaced f mem := by
    rw [Form.dropTags_suspended] at mem
    exact law.suspendedPlaced f (List.mem_of_mem_filter mem)
  activeOrder := law.activeOrder.filter _
  suspendedOrder := by
    rw [Form.dropTags_suspended]
    exact law.suspendedOrder.filter _
  tags := by
    rw [Form.dropTags_suspended, Form.dropTags_active, ← List.filter_append]
    exact law.tags.sublist (List.filter_sublist.map _)
  room := by
    rw [Form.dropTags_suspended, Form.dropTags_active]
    exact (Nat.add_le_add (List.length_filter_le _ _) (List.length_filter_le _ _)).trans law.room
  window o opened := by
    obtain ⟨o', opened', rfl⟩ := Option.map_eq_some_iff.mp opened
    have window := law.window o' opened'
    refine ⟨window.fits, fun f mem => window.wholly f (List.mem_of_mem_filter mem), fun f mem => ?_⟩
    exact (window.apart f (List.mem_of_mem_filter mem)).imp_right fun clear g mem =>
      clear g (List.mem_of_mem_filter mem)

theorem Form.mem_overlapped {f g : Field} :
    g ∈ fm.overlapped f ↔ g ∈ fm.active ∧ (g.tag = f.tag ∨ g.sharesCell f = true) := by
  simp [Form.overlapped]

/-- The records that stay in the table when a record enters it have another tag and lie apart from it
(R23). -/
theorem Form.Lawful.mem_dropped (law : fm.Lawful) {f g : Field} (placed : f.placed = true) :
    g ∈ (fm.dropTags ((fm.overlapped f).map (·.tag))).active ↔
      g ∈ fm.active ∧ g.tag ≠ f.tag ∧ f.apart g = true := by
  have tagged {h : Field} (active : g ∈ fm.active) (mem : h ∈ fm.active) (same : h.tag = g.tag) :
      h = g := List.inj_on_of_nodup_map law.activeTags mem active same
  have shares (active : g ∈ fm.active) : g.sharesCell f = !f.apart g := by
    rw [Field.sharesCell_eq_not_apart (law.activePlaced g active) placed, Field.apart_comm]
  rw [Form.dropTags_active, List.mem_filter]
  refine and_congr_right fun active => ?_
  simp only [Bool.not_eq_true', ← Bool.not_eq_true, List.contains_iff_mem, List.mem_map]
  constructor
  · intro kept
    refine ⟨fun same => kept ⟨g, Form.mem_overlapped.mpr ⟨active, .inl same⟩, rfl⟩, ?_⟩
    by_contra near
    refine kept ⟨g, Form.mem_overlapped.mpr ⟨active, .inr ?_⟩, rfl⟩
    simpa [shares active] using near
  · rintro ⟨differ, apart⟩ ⟨h, mem, same⟩
    obtain ⟨mem, way⟩ := Form.mem_overlapped.mp mem
    cases tagged active mem same
    simp [shares active, apart, differ] at way

theorem Form.length_dropped (fm : Form) (f : Field) :
    (fm.dropTags ((fm.overlapped f).map (·.tag))).active.length + (fm.overlapped f).length ≤
      fm.active.length := by
  have stays (g : Field)
      (kept : (!((fm.overlapped f).map (·.tag)).contains g.tag) = true) (active : g ∈ fm.active) :
      (!(g.tag == f.tag || g.sharesCell f)) = true := by
    rw [Bool.not_eq_true', ← Bool.not_eq_true, List.contains_iff_mem] at kept
    rw [Bool.not_eq_true', ← Bool.not_eq_true]
    exact fun way => kept (List.mem_map_of_mem (List.mem_filter.mpr ⟨active, way⟩))
  have shorter : (fm.dropTags ((fm.overlapped f).map (·.tag))).active.length ≤
      (fm.active.filter fun g => !(g.tag == f.tag || g.sharesCell f)).length := by
    rw [Form.dropTags_active, ← List.countP_eq_length_filter, ← List.countP_eq_length_filter]
    exact List.countP_mono_left fun g active kept => stays g kept active
  have split := List.length_eq_countP_add_countP (l := fm.active)
    (p := fun g => g.tag == f.tag || g.sharesCell f)
  have way : (fm.overlapped f).length =
      fm.active.countP fun g => g.tag == f.tag || g.sharesCell f :=
    List.countP_eq_length_filter.symm
  rw [← List.countP_eq_length_filter] at shorter
  simp only [Bool.not_eq_true, Bool.decide_eq_false] at split
  omega

theorem Form.Lawful.entered (law : fm.Lawful) {f : Field} (placed : f.placed = true)
    (reachable : fm.reachable f = true) (unsuspended : fm.suspendedTag f.tag = none)
    (room : fm.active.length - (fm.overlapped f).length + fm.suspended.length < poolSize) :
    (fm.entered f).Lawful := by
  have dropped := law.dropTags ((fm.overlapped f).map (·.tag))
  have kept (g : Field) (mem : g ∈ (fm.dropTags ((fm.overlapped f).map (·.tag))).active) :=
    ((law.mem_dropped placed).mp mem).2
  have suspended : (fm.entered f).suspended =
      (fm.dropTags ((fm.overlapped f).map (·.tag))).suspended := rfl
  have active : (fm.entered f).active =
      insertByStart f (fm.dropTags ((fm.overlapped f).map (·.tag))).active := rfl
  have untagged (g : Field) (mem : g ∈ fm.suspended) : g.tag ≠ f.tag := fun same => by
    have := List.find?_eq_none.mp unsuspended g mem
    simp [same] at this
  have fewer : (fm.dropTags ((fm.overlapped f).map (·.tag))).suspended.length ≤
      fm.suspended.length := by
    rw [Form.dropTags_suspended]
    exact List.length_filter_le _ _
  constructor
  case activePlaced =>
    intro g mem
    rw [active, mem_insertByStart] at mem
    obtain rfl | mem := mem
    exacts [placed, dropped.activePlaced g mem]
  case suspendedPlaced => exact dropped.suspendedPlaced
  case activeOrder =>
    exact insertByStart_order dropped.activeOrder placed fun g mem =>
      ⟨dropped.activePlaced g mem, (kept g mem).2⟩
  case suspendedOrder => exact dropped.suspendedOrder
  case tags =>
    rw [active, suspended, (((insertByStart_perm f _).append_right _).map _).nodup_iff,
      List.cons_append, List.map_cons, List.nodup_cons]
    refine ⟨fun mem => ?_, dropped.tags⟩
    obtain ⟨g, mem, same⟩ := List.mem_map.mp mem
    obtain mem | mem := List.mem_append.mp mem
    · exact (kept g mem).1 same
    · rw [Form.dropTags_suspended] at mem
      exact untagged g (List.mem_of_mem_filter mem) same
  case room =>
    rw [active, suspended, (insertByStart_perm f _).length_eq, List.length_cons]
    have := fm.length_dropped f
    omega
  case window =>
    intro o opened
    have window := dropped.window o opened
    have held : o.window.holds f = true := by
      obtain ⟨o', opened', rfl⟩ := Option.map_eq_some_iff.mp opened
      exact Form.reachable_iff.mp reachable o' opened'
    refine ⟨window.fits, fun g mem => ?_, fun g mem => ?_⟩
    all_goals
      rw [active, mem_insertByStart] at mem
      obtain rfl | mem := mem
    exacts [.inl held, window.wholly g mem, .inl held, window.apart g mem]

theorem Form.Lawful.opened (law : fm.Lawful) {w : Window} (style : Nat) (fits : w.fits = true) :
    (fm.opened w style).Lawful := by
  have active : (fm.opened w style).active = fm.active.filter fun f => !w.touches f := rfl
  have suspended : (fm.opened w style).suspended = fm.active.filter w.touches := rfl
  have clear (f : Field) (mem : f ∈ (fm.opened w style).active) : w.touches f = false := by
    rw [active, List.mem_filter] at mem
    simpa using mem.2
  have parted : (fm.active.filter (fun f => !w.touches f) ++ fm.active.filter w.touches).Perm
      fm.active :=
    List.perm_append_comm.trans (List.filter_append_perm _ _)
  constructor
  case activePlaced => exact fun f mem => law.activePlaced f (List.mem_of_mem_filter mem)
  case suspendedPlaced => exact fun f mem => law.activePlaced f (List.mem_of_mem_filter mem)
  case activeOrder => exact law.activeOrder.filter _
  case suspendedOrder => exact law.activeOrder.filter _
  case tags =>
    rw [active, suspended, (parted.map _).nodup_iff]
    exact law.activeTags
  case room =>
    rw [active, suspended, ← List.length_append, parted.length_eq]
    exact (Nat.le_add_right _ _).trans law.room
  case window =>
    rintro o ⟨⟩
    refine ⟨fits, fun f mem => .inr (clear f mem), fun f mem => .inr fun g touching => ?_⟩
    obtain rfl | apart := eq_or_apart_of_order law.activeOrder
      (List.mem_of_mem_filter mem) (List.mem_of_mem_filter touching)
    · have := (List.mem_filter.mp touching).2
      rw [clear f mem] at this
      cases this
    · exact apart

/-- The records after the close: those outside the window and those that were suspended (R142). -/
theorem Form.returned_perm (fm : Form) (o : Overlay) : (fm.returned o).active.Perm
    (o.suspended ++ fm.active.filter fun f => !o.window.holds f) :=
  foldl_insertByStart_perm _ _

theorem Form.Lawful.returned (law : fm.Lawful) {o : Overlay} (opened : fm.overlay = some o) :
    (fm.returned o).Lawful := by
  have window := law.window o opened
  have suspended : fm.suspended = o.suspended := Form.suspended_of_overlay opened
  have mem_iff (f : Field) : f ∈ (fm.returned o).active ↔
      f ∈ o.suspended ∨ f ∈ fm.active ∧ o.window.holds f = false := by
    rw [(fm.returned_perm o).mem_iff, List.mem_append, List.mem_filter, Bool.not_eq_true']
  have placed (f : Field) (mem : f ∈ o.suspended ∨ f ∈ fm.active ∧ o.window.holds f = false) :
      f.placed = true := by
    obtain mem | ⟨mem, _⟩ := mem
    exacts [law.suspendedPlaced f (suspended ▸ mem), law.activePlaced f mem]
  have none : (fm.returned o).suspended = [] := rfl
  constructor
  case activePlaced => exact fun f mem => placed f ((mem_iff f).mp mem)
  case suspendedPlaced =>
    rw [none]
    rintro f ⟨⟩
  case activeOrder =>
    refine foldl_insertByStart_order (law.activeOrder.filter _) (suspended ▸ law.suspendedOrder)
      (fun f mem => placed f ?_) fun f mem g mem' => ?_
    · simpa only [List.mem_append, List.mem_filter, Bool.not_eq_true'] using mem
    · obtain ⟨active, outside⟩ := List.mem_filter.mp mem'
      rw [Bool.not_eq_true'] at outside
      rw [Field.apart_comm]
      exact (window.apart g active).resolve_left (by simp [outside]) f mem
  case suspendedOrder =>
    rw [none]
    exact .nil
  case tags =>
    rw [none, List.append_nil, ((fm.returned_perm o).map _).nodup_iff, ← suspended,
      (List.perm_append_comm.map _).nodup_iff]
    exact law.tags.sublist ((List.filter_sublist.append_right _).map _)
  case room =>
    rw [none, (fm.returned_perm o).length_eq, List.length_append, ← suspended]
    have := law.room
    have := List.length_filter_le (fun f => !o.window.holds f) fm.active
    simp only [List.length_nil]
    omega
  case window => rintro o ⟨⟩

end

theorem Form.invariant_lawful :
    Form.Invariant (fun f => f.placed = true) fun fm => fm.lawful = true where
  toKept := Form.kept_lawful true
  reset _ := rfl
  blank law := law
  drop tags law := Form.lawful_iff.mpr ((Form.lawful_iff.mp law).dropTags tags)
  enter placed _ reachable unsuspended room law :=
    Form.lawful_iff.mpr ((Form.lawful_iff.mp law).entered placed reachable unsuspended room)
  opening style _ fits law :=
    Form.lawful_iff.mpr ((Form.lawful_iff.mp law).opened style fits)
  closing opened law := Form.lawful_iff.mpr ((Form.lawful_iff.mp law).returned opened)

/-! ## The cursor (R99, R134) -/

theorem Form.cursorLaw_of_savedPlace {fm fm' : Form} (law : fm.cursorLaw = true)
    (cursor : fm'.cursor = fm.cursor) (place : fm'.savedPlace = fm.savedPlace) :
    fm'.cursorLaw = true := by
  rwa [Form.cursorLaw_congr cursor place]

theorem Window.contains_corner (w : Window) (fits : w.fits = true) : w.contains w.corner = true := by
  have ⟨⟨rows, _⟩, ⟨cols, _⟩, _⟩ := Window.fits_iff.mp fits
  rw [Window.corner_eq_cellAt]
  exact Window.contains_cellAt fits rows cols

/-- The cursor goes to a place that fits. -/
theorem Form.cursorLaw_of_fits {fm : Form} (law : fm.cursorLaw = true) {p : Nat}
    (fits : fm.cursorFits p) : Form.cursorLaw { fm with cursor := p } = true :=
  Form.cursorLaw_iff_savedPlace.mpr ⟨fits, (Form.cursorLaw_iff_savedPlace.mp law).2⟩

theorem Form.invariant_cursorLaw : Form.Invariant (fun f => f.placed = true)
    fun fm => fm.lawful = true ∧ fm.cursorLaw = true where
  write susp n p l law := ⟨Form.invariant_lawful.write susp n p l law.1,
    Form.cursorLaw_of_savedPlace law.2 (by simp) (by simp)⟩
  records retains law := ⟨Form.invariant_lawful.records retains law.1,
    Form.cursorLaw_of_savedPlace law.2 (by simp) (by simp)⟩
  raise holds law := ⟨Form.invariant_lawful.raise holds law.1,
    Form.cursorLaw_of_savedPlace law.2 (by simp [Form.mapTag]) (by simp [Form.mapTag])⟩
  cursor fits law := ⟨law.1, Form.cursorLaw_of_fits law.2 (fits law.1 law.2)⟩
  insert _ law := law
  visit _ law := law
  push _ law := law
  pop _ law := law
  reset _ := ⟨rfl, rfl⟩
  blank law := law
  drop tags law := ⟨Form.invariant_lawful.drop tags law.1,
    Form.cursorLaw_of_savedPlace law.2 rfl (Form.dropTags_savedPlace _ tags)⟩
  enter placed unmodified reachable unsuspended room law :=
    ⟨Form.invariant_lawful.enter placed unmodified reachable unsuspended room law.1,
      Form.cursorLaw_of_savedPlace law.2 rfl (Form.entered_savedPlace _ _)⟩
  opening {fm w} style closed fits law := by
    refine ⟨Form.invariant_lawful.opening style closed fits law.1,
      Form.cursorLaw_iff_savedPlace.mpr ⟨⟨?_, ?_⟩, ?_⟩⟩
    · exact Window.lt_of_contains fits (w.contains_corner fits)
    · rintro o ⟨⟩
      exact w.contains_corner fits
    · rintro _ ⟨⟩
      exact (Form.cursorLaw_iff.mp law.2).1.1
  closing {fm o} opened law := by
    refine ⟨Form.invariant_lawful.closing opened law.1,
      Form.cursorLaw_iff_savedPlace.mpr ⟨⟨?_, ?_⟩, ?_⟩⟩
    · exact (Form.cursorLaw_iff.mp law.2).2 o opened
    · rintro o ⟨⟩
    · rintro _ ⟨⟩

/-! ## The modified marks (R32) -/

/-- A record of the form, active or suspended, meets the condition when it is one of the given list. -/
theorem Form.modifiedLaw_iff {fm : Form} : fm.modifiedLaw = true ↔
    ∀ f ∈ fm.active ++ fm.suspended, f.modified = true → f.kind = .entry := by
  simp only [Form.modifiedLaw, List.all_eq_true, Bool.or_eq_true, Bool.not_eq_true',
    decide_eq_true_iff, ← Bool.not_eq_true, imp_iff_not_or]

theorem Form.modifiedLaw_of_subset {fm fm' : Form} (law : fm.modifiedLaw = true)
    (fewer : ∀ f ∈ fm'.active ++ fm'.suspended, f.modified = false ∨ f ∈ fm.active ++ fm.suspended) :
    fm'.modifiedLaw = true :=
  Form.modifiedLaw_iff.mpr fun f mem marked =>
    Form.modifiedLaw_iff.mp law f ((fewer f mem).resolve_left (by simp [marked])) marked

theorem Form.modifiedLaw_of_records {fm fm' : Form} (law : fm.modifiedLaw = true)
    (active : fm'.active = fm.active) (suspended : fm'.suspended = fm.suspended) :
    fm'.modifiedLaw = true := by
  rwa [Form.modifiedLaw, active, suspended]

/-- A change of the records that sets the modified mark of ENTRY records alone. -/
theorem Form.modifiedLaw_mapRecords {fm : Form} {g : Field → Field} (law : fm.modifiedLaw = true)
    (kind : ∀ f, (g f).kind = f.kind)
    (marks : ∀ f ∈ fm.active ++ fm.suspended, (g f).modified = true →
      f.modified = true ∨ f.kind = .entry) : (fm.mapRecords g).modifiedLaw = true := by
  refine Form.modifiedLaw_iff.mpr ?_
  rw [Form.mapRecords_active, Form.mapRecords_suspended, ← List.map_append]
  intro _ mapped marked
  obtain ⟨f, mem, rfl⟩ := List.mem_map.mp mapped
  rw [kind]
  exact (marks f mem marked).elim (Form.modifiedLaw_iff.mp law f mem) id

theorem Form.Lawful.entry_of_holdsEntry {fm : Form} (law : fm.Lawful) {t : Nat}
    (holds : fm.holdsEntry t) {f : Field} (mem : f ∈ fm.active ++ fm.suspended) (tag : f.tag = t) :
    f.kind = .entry := by
  obtain ⟨g, active, rfl, entry⟩ := holds
  cases List.inj_on_of_nodup_map law.tags mem (List.mem_append_left _ active) tag
  exact entry

theorem Form.invariant_modifiedLaw : Form.Invariant (fun f => f.placed = true)
    fun fm => fm.lawful = true ∧ fm.modifiedLaw = true where
  write susp n p l law := ⟨Form.invariant_lawful.write susp n p l law.1,
    Form.modifiedLaw_of_records law.2 (by simp) (by simp)⟩
  records retains law := ⟨Form.invariant_lawful.records retains law.1,
    Form.modifiedLaw_mapRecords law.2 retains.kind fun f _ marked => .inl (retains.modified f marked)⟩
  raise {fm t} holds law := by
    refine ⟨Form.invariant_lawful.raise holds law.1, Form.modifiedLaw_mapRecords law.2
      (fun f => by split_ifs <;> rfl) fun f mem marked => ?_⟩
    by_cases tag : f.tag = t
    · exact .inr ((Form.lawful_iff.mp law.1).entry_of_holdsEntry holds mem tag)
    · exact .inl (by simpa [tag] using marked)
  cursor _ law := law
  insert _ law := law
  visit _ law := law
  push _ law := law
  pop _ law := law
  reset _ := ⟨rfl, rfl⟩
  blank law := law
  drop tags law := by
    refine ⟨Form.invariant_lawful.drop tags law.1, Form.modifiedLaw_of_subset law.2 fun f mem => ?_⟩
    rw [Form.dropTags_suspended, Form.dropTags_active, ← List.filter_append] at mem
    exact .inr (List.mem_of_mem_filter mem)
  enter {fm f} placed unmodified reachable unsuspended room law := by
    refine ⟨Form.invariant_lawful.enter placed unmodified reachable unsuspended room law.1,
      Form.modifiedLaw_of_subset law.2 fun g mem => ?_⟩
    have suspended : (fm.entered f).suspended =
      (fm.dropTags ((fm.overlapped f).map (·.tag))).suspended := rfl
    rw [suspended, Form.dropTags_suspended] at mem
    obtain mem | mem := List.mem_append.mp mem
    · obtain rfl | mem := mem_insertByStart.mp mem
      · exact .inl unmodified
      · exact .inr (List.mem_append_left _ (List.mem_of_mem_filter mem))
    · exact .inr (List.mem_append_right _ (List.mem_of_mem_filter mem))
  opening {fm w} style closed fits law := by
    refine ⟨Form.invariant_lawful.opening style closed fits law.1,
      Form.modifiedLaw_of_subset law.2 fun f mem => .inr (List.mem_append_left _ ?_)⟩
    obtain mem | mem := List.mem_append.mp mem
    all_goals exact List.mem_of_mem_filter mem
  closing {fm o} opened law := by
    refine ⟨Form.invariant_lawful.closing opened law.1,
      Form.modifiedLaw_of_subset law.2 fun f mem => .inr ?_⟩
    have none : (fm.returned o).suspended = [] := rfl
    rw [none, List.append_nil, (fm.returned_perm o).mem_iff] at mem
    rw [Form.suspended_of_overlay opened]
    obtain mem | mem := List.mem_append.mp mem
    · exact List.mem_append_right _ mem
    · exact List.mem_append_left _ (List.mem_of_mem_filter mem)

/-! ## The table law of the state -/

theorem State.tableLaw_iff {s : State} :
    s.tableLaw = true ↔ s.form.lawful = true ∧ s.stream.writePos < cellCount := by
  rw [State.tableLaw, Bool.and_eq_true, decide_eq_true_iff]

end Sys2Proof.Machine
end

section
/-! PROOFS. Every command keeps the entry state in step with the stream and the scans in step with their
markers. -/

namespace Sys2Proof.Machine

open Sys2Proof

/-! ## What an operator's action leaves of the input -/

/-- The queues as they are or emptied, the entry state as it is or one outside HELD (R96, R97). -/
def Input.Ended (i j : Input) : Prop :=
  ∃ e : EntryState, (e = i.entry ∨ e.isHeld = false) ∧
    (j = { i with entry := e } ∨ j = { i.emptied with entry := e })

theorem Input.Ended.refl (i : Input) : i.Ended i := ⟨i.entry, .inl rfl, .inl rfl⟩

theorem State.submitAccepted_ended (s : State) : s.input.Ended s.submitAccepted.input := by
  refine ⟨.await, .inr rfl, ?_⟩
  unfold State.submitAccepted
  dsimp only
  split
  · exact .inl rfl
  · exact .inr rfl

theorem State.keyRefused_ended {s : State} {i : Input} (same : s.input = i) :
    i.Ended s.keyRefused.input := by
  subst same
  unfold State.keyRefused
  dsimp only
  split
  · exact .refl _
  · exact ⟨.fault, .inr rfl, .inr rfl⟩

theorem State.Acted.ended {s t : State} (made : s.Acted t) : s.input.Ended t.input := by
  cases made with
  | refused => exact State.keyRefused_ended rfl
  | backRefused => exact State.keyRefused_ended rfl
  | submitRefused f swept => exact State.keyRefused_ended rfl
  | submitted key =>
    have built := State.buildReport_keeps { s with form := s.form.exitProcess } 0x81 key s.clock
    have ended := State.submitAccepted_ended
      (State.buildReport { s with form := s.form.exitProcess } 0x81 key s.clock)
    rwa [built.1] at ended
  | cancelled bytes =>
    have ended := State.submitAccepted_ended (s.claimReply bytes)
    rwa [State.claimReply_input] at ended
  | unchanged | moved | back | char | edited | insertToggle | stepped => exact .refl _

theorem State.Acted.stream {s t : State} (made : s.Acted t) : t.stream = s.stream := by
  cases made <;> simp [State.buildReport]

theorem State.Scanned.ended {s t : State} (made : s.Scanned t) : s.input.Ended t.input := by
  cases made with
  | submitted r f kept key active entry reachable =>
    have ended := State.submitAccepted_ended (State.buildReport (State.sound { s with
      form := (s.form.placeScan s.tables.options.insertAtEntry r f kept).exitProcess } .good)
      0x81 key s.clock)
    rwa [(State.buildReport_keeps _ _ _ _).1] at ended
  | refused | placed | sweptOff => exact .refl _

theorem State.Scanned.stream {s t : State} (made : s.Scanned t) : t.stream = s.stream := by
  cases made <;> simp [State.buildReport]

/-! ## HELD exactly while a chain is applied or goes on (R90) -/

theorem EntryState.isHeld_of_open {e : EntryState} (opened : e = .openEntry) : e.isHeld = false := by
  rw [opened]
  rfl

theorem State.heldLaw_iff {s : State} :
    s.heldLaw = true ↔ (s.input.entry.isHeld = true ↔ s.stream.phase ≠ .idle) := by
  rw [State.heldLaw, beq_iff_eq, Bool.eq_iff_iff, decide_eq_true_iff]

theorem State.heldLaw_of_idle {s : State} (entry : s.input.entry.isHeld = false)
    (idle : s.stream.phase = .idle) : s.heldLaw = true :=
  State.heldLaw_iff.mpr (by simp [entry, idle])

theorem State.heldLaw_of_held {s : State} (entry : s.input.entry.isHeld = true)
    (busy : s.stream.phase ≠ .idle) : s.heldLaw = true :=
  State.heldLaw_iff.mpr (by simp [entry, busy])

theorem Input.chainEnded_isHeld (i : Input) (release : Bool) :
    (i.chainEnded release).entry.isHeld = false := by
  unfold Input.chainEnded
  split
  next back _ => cases release <;> cases back <;> rfl
  next other =>
    cases entry : i.entry with
    | held back => exact absurd entry (other back)
    | openEntry | await | fault => rfl

theorem Input.applicationBegun_isHeld (i : Input) : i.applicationBegun.entry.isHeld = true := by
  unfold Input.applicationBegun
  split
  case h_4 back entry => rw [entry]; rfl
  all_goals rfl

theorem State.endChain_heldLaw (s : State) (release : Bool) : (s.endChain release).heldLaw = true :=
  State.heldLaw_of_idle (s.input.chainEnded_isHeld release) rfl

theorem State.refuseDirective_heldLaw (s : State) (e : DirError) :
    (s.refuseDirective e).heldLaw = true := by
  rw [State.refuseDirective, State.heldLaw, State.offer_input, State.offer_stream]
  exact s.endChain_heldLaw false

theorem State.reachOffset_heldLaw {s : State} (entry : s.input.entry.isHeld = true) (left : Nat) :
    (s.reachOffset left).heldLaw = true := by
  obtain ⟨_, eq⟩ | ⟨_, _, eq⟩ | ⟨_, _, eq⟩ := s.reachOffset_cases left
  · rw [eq]
    exact State.heldLaw_of_held entry (by simp)
  · rw [eq]
    exact State.heldLaw_of_held entry (by simp)
  · rw [eq]
    exact s.endChain_heldLaw _

theorem State.beginBlock_heldLaw {s : State} (entry : s.input.entry.isHeld = true) :
    s.beginBlock.heldLaw = true := by
  unfold State.beginBlock
  dsimp only
  apply State.reachOffset_heldLaw
  exact entry

theorem State.abandonChain_heldLaw (s : State) : s.abandonChain.heldLaw = true := by
  rw [State.abandonChain, State.heldLaw, State.offer_input, State.offer_stream]
  exact State.heldLaw_of_idle (s := { s with stream := _, input := _ })
    (s.input.chainEnded_isHeld false) rfl

theorem State.heldLaw_of_ended {s t : State} (opened : s.input.entry = .openEntry)
    (law : s.heldLaw = true) {i : Input} (ended : i.Ended t.input) (entry : i.entry = s.input.entry)
    (stream : t.stream = s.stream) : t.heldLaw = true := by
  have idle : s.stream.phase = .idle := by
    by_contra busy
    have held := (State.heldLaw_iff.mp law).mpr busy
    rw [EntryState.isHeld_of_open opened] at held
    cases held
  obtain ⟨e, same, queues⟩ := ended
  have free : e.isHeld = false :=
    same.elim (fun eq => EntryState.isHeld_of_open (eq.trans (entry.trans opened))) id
  refine State.heldLaw_of_idle ?_ (stream ▸ idle)
  obtain eq | eq := queues
  all_goals
    rw [eq]
    exact free

theorem Phase.tick_eq_idle_iff (p : Phase) : p.tick = .idle ↔ p = .idle := by
  cases p <;> simp [Phase.tick]

/-- A key changes neither whether the entry state is HELD nor the stream (R92, R94). -/
theorem State.keyByte_isHeld (s : State) (b : Byte) :
    (s.keyByte b).input.entry.isHeld = s.input.entry.isHeld := by
  have queued (a : Action) : (s.queueAction a).input.entry = s.input.entry := by
    unfold State.queueAction
    split <;> rfl
  have arrives (a : Action) : (s.actionArrives a).input.entry = s.input.entry := by
    unfold State.actionArrives
    split
    · exact queued a
    all_goals rfl
  have reset : s.resetArrives.input.entry.isHeld = s.input.entry.isHeld := by
    unfold State.resetArrives
    split
    case h_1 | h_2 => rw [queued]
    case h_4 entry => rw [entry]; rfl
    case h_6 entry => rw [entry]; rfl
    all_goals rfl
  have pressed (code : Nat) : (s.keyPressed code).input.entry.isHeld = s.input.entry.isHeld := by
    unfold State.keyPressed
    split
    · rfl
    · exact reset
    · rw [arrives]
  unfold State.keyByte
  split_ifs
  case neg => exact pressed _
  all_goals rfl

theorem State.scanCompleted_entry (s : State) : s.scanCompleted.input.entry = s.input.entry := by
  unfold State.scanCompleted
  dsimp only
  split_ifs <;> rfl

theorem State.heldLaw_congr {s t : State} (entry : t.input.entry.isHeld = s.input.entry.isHeld)
    (phase : t.stream.phase = .idle ↔ s.stream.phase = .idle) : t.heldLaw = s.heldLaw := by
  rw [Bool.eq_iff_iff, State.heldLaw_iff, State.heldLaw_iff, entry, ne_eq, phase]

theorem State.held_of_chained {s : State} {left : Nat} (law : s.heldLaw = true)
    (chained : s.stream.phase = .chained left) : s.input.entry.isHeld = true :=
  (State.heldLaw_iff.mp law).mpr (by simp [chained])

theorem State.held_of_applying {s : State} {offset : Nat} {paused : Option Selector}
    (law : s.heldLaw = true) (applying : s.stream.phase = .applying offset paused) :
    s.input.entry.isHeld = true :=
  (State.heldLaw_iff.mp law).mpr (by simp [applying])

theorem State.Event.heldLaw {s t : State} {c : Instr} (made : s.Event c t) (law : s.heldLaw = true) :
    t.heldLaw = true := by
  cases made with
  | powerUp | resetnAssert => rfl
  | lineReset =>
    rw [State.lineResetTaken, State.startEnded, State.heldLaw, State.offer_input, State.offer_stream]
    rfl
  | tick =>
    rw [State.heldLaw_congr (s := s) (by simp [State.tick, State.countTick])]
    · exact law
    · simp [State.tick, State.countTick, Phase.tick_eq_idle_iff]
  | chainAbandoned => exact s.abandonChain_heldLaw
  | goodCharacter c b =>
    obtain ⟨l, eq⟩ := State.goodCharacter_line { s with line := s.line.seenAtMark } b
    rwa [eq]
  | blockTaken c idle =>
    exact State.beginBlock_heldLaw (s := { s with stream := _, input := _ })
      s.input.applicationBegun_isHeld
  | blockContinued c left chained =>
    exact State.beginBlock_heldLaw (State.held_of_chained law chained)
  | keyByte c b => rwa [State.heldLaw_congr (s.keyByte_isHeld b) (by simp)]
  | scanCompleted c => rwa [State.heldLaw_congr (s := s) (by rw [s.scanCompleted_entry]) (by simp)]
  | startEnded | frameFault | frameGone | cellsSent =>
    rwa [State.heldLaw_congr (s := s) (by simp [State.startEnded, State.frameGone])
      (by simp [State.startEnded, State.frameGone])]
  | resetnRelease | gathered | toneStepEnded | rowStarted | withdrawn | atMark => exact law

theorem State.Change.heldLaw {s t : State} {c : Instr} (made : s.Change c t)
    (law : s.heldLaw = true) : t.heldLaw = true := by
  cases made with
  | notDue => exact law
  | refused c e => exact s.refuseDirective_heldLaw e
  | applied d u left offset due made =>
    exact State.reachOffset_heldLaw (made.sameControl.input ▸ State.held_of_applying law due) left
  | paused c offset chosen due => 
    have held := State.held_of_applying law due
    exact State.heldLaw_of_held held (by simp)
  | resumed c offset left chosen due =>
    exact State.reachOffset_heldLaw
      ((s.buildReadReply_sameControl chosen).input ▸ State.held_of_applying law due) left
  | acted c a rest t isAction opened queued made =>
    exact State.heldLaw_of_ended opened law made.ended rfl made.stream
  | scanned rest scan waiting t opened queued scans made =>
    exact State.heldLaw_of_ended opened law made.ended rfl made.stream
  | event c t made => exact made.heldLaw law

/-! ## The queues (R88, R89) -/

theorem Input.queueLaw_iff {i : Input} : i.queueLaw = true ↔
    i.typeAhead.count .marker = i.scans.length ∧ i.typeAhead.length ≤ 32 ∧ i.scans.length ≤ 4 ∧
      .action .none ∉ i.typeAhead := by
  simp [Input.queueLaw, and_assoc]

theorem Input.queueLaw_congr {i j : Input} (typeAhead : j.typeAhead = i.typeAhead)
    (scans : j.scans = i.scans) : j.queueLaw = i.queueLaw := by
  rw [Input.queueLaw, Input.queueLaw, typeAhead, scans]

theorem Input.Ended.queueLaw {i j : Input} (ended : i.Ended j) (law : i.queueLaw = true) :
    j.queueLaw = true := by
  obtain ⟨e, _, rfl | rfl⟩ := ended
  · exact law
  · rfl

theorem Input.chainEnded_queueLaw (i : Input) (release : Bool) :
    (i.chainEnded release).queueLaw = i.queueLaw := by
  unfold Input.chainEnded
  split <;> rfl

theorem Input.applicationBegun_queueLaw (i : Input) : i.applicationBegun.queueLaw = i.queueLaw := by
  unfold Input.applicationBegun
  split <;> rfl

theorem State.reachOffset_queueLaw (s : State) (left : Nat) :
    (s.reachOffset left).input.queueLaw = s.input.queueLaw := by
  obtain ⟨_, eq⟩ | ⟨_, _, eq⟩ | ⟨_, _, eq⟩ := s.reachOffset_cases left
  · rw [eq]
  · rw [eq]
  · rw [eq]
    exact s.input.chainEnded_queueLaw _

theorem State.beginBlock_queueLaw (s : State) : s.beginBlock.input.queueLaw = s.input.queueLaw :=
  State.reachOffset_queueLaw _ _

/-- An entry taken from the head of the queue leaves the law, with its scan when it is a marker. -/
theorem Input.queueLaw_of_action {i : Input} {a : Action} {rest : List QueueEntry}
    (law : i.queueLaw = true) (queued : i.typeAhead = .action a :: rest) :
    Input.queueLaw { i with typeAhead := rest } = true := by
  obtain ⟨markers, room, scanRoom, none⟩ := Input.queueLaw_iff.mp law
  rw [queued] at markers room none
  refine Input.queueLaw_iff.mpr ⟨?_, ?_, scanRoom, fun mem => none (List.mem_cons_of_mem _ mem)⟩
  · simpa using markers
  · exact (Nat.le_succ _).trans room

theorem Input.queueLaw_of_marker {i : Input} {scan : List Byte} {rest : List QueueEntry}
    {waiting : List (List Byte)} (law : i.queueLaw = true) (queued : i.typeAhead = .marker :: rest)
    (scans : i.scans = scan :: waiting) :
    Input.queueLaw { i with typeAhead := rest, scans := waiting } = true := by
  obtain ⟨markers, room, scanRoom, none⟩ := Input.queueLaw_iff.mp law
  rw [queued] at markers room none
  rw [scans] at markers scanRoom
  refine Input.queueLaw_iff.mpr
    ⟨?_, (Nat.le_succ _).trans room, (Nat.le_succ _).trans scanRoom,
      fun mem => none (List.mem_cons_of_mem _ mem)⟩
  simpa using markers

theorem State.queueAction_queueLaw {s : State} {a : Action} (isAction : a ≠ .none)
    (law : s.input.queueLaw = true) : (s.queueAction a).input.queueLaw = true := by
  obtain ⟨markers, _, scanRoom, none⟩ := Input.queueLaw_iff.mp law
  unfold State.queueAction
  split
  next room =>
    refine Input.queueLaw_iff.mpr ⟨?_, ?_, scanRoom, ?_⟩
    · simpa using markers
    · simpa using room
    · simp [none, isAction.symm]
  · exact law

theorem State.actionArrives_queueLaw {s : State} {a : Action} (isAction : a ≠ .none)
    (law : s.input.queueLaw = true) : (s.actionArrives a).input.queueLaw = true := by
  unfold State.actionArrives
  split
  · exact State.queueAction_queueLaw isAction law
  all_goals exact law

theorem State.resetArrives_queueLaw {s : State} (law : s.input.queueLaw = true) :
    s.resetArrives.input.queueLaw = true := by
  unfold State.resetArrives
  split
  case h_1 | h_2 => exact State.queueAction_queueLaw (by simp) law
  all_goals exact law

theorem State.keyByte_queueLaw {s : State} (law : s.input.queueLaw = true) (b : Byte) :
    (s.keyByte b).input.queueLaw = true := by
  have pressed (code : Nat) : (s.keyPressed code).input.queueLaw = true := by
    unfold State.keyPressed
    split
    · exact law
    · exact State.resetArrives_queueLaw law
    next isAction _ => exact State.actionArrives_queueLaw (fun none => isAction none) law
  unfold State.keyByte
  split_ifs
  case neg => exact pressed _
  all_goals exact law

theorem State.scanCompleted_queueLaw {s : State} (law : s.input.queueLaw = true) :
    s.scanCompleted.input.queueLaw = true := by
  obtain ⟨markers, _, _, none⟩ := Input.queueLaw_iff.mp law
  unfold State.scanCompleted
  dsimp only
  split_ifs with bad allowed
  · exact law
  · simp only [State.allowsScan, Bool.and_eq_true, decide_eq_true_iff] at allowed
    obtain ⟨⟨_, room⟩, scanRoom⟩ := allowed
    refine Input.queueLaw_iff.mpr ⟨?_, ?_, ?_, ?_⟩
    · simpa using markers
    · simpa using room
    · simpa using scanRoom
    · simp [none]
  · exact law

theorem State.Event.queueLaw {s t : State} {c : Instr} (made : s.Event c t)
    (law : s.input.queueLaw = true) : t.input.queueLaw = true := by
  cases made with
  | powerUp | resetnAssert => rfl
  | lineReset =>
    rw [State.lineResetTaken, State.startEnded, State.offer_input]
    rfl
  | tick =>
    rw [Input.queueLaw_congr (i := s.input)]
    · exact law
    all_goals simp [State.tick, State.countTick]
  | chainAbandoned =>
    rw [State.abandonChain, State.offer_input]
    rwa [Input.chainEnded_queueLaw]
  | goodCharacter c b =>
    obtain ⟨l, eq⟩ := State.goodCharacter_line { s with line := s.line.seenAtMark } b
    rwa [eq]
  | blockTaken c idle =>
    rw [State.beginBlock_queueLaw]
    rwa [Input.applicationBegun_queueLaw]
  | blockContinued c left chained => rwa [State.beginBlock_queueLaw]
  | keyByte c b => exact State.keyByte_queueLaw law b
  | scanCompleted c => exact State.scanCompleted_queueLaw law
  | startEnded | frameFault | frameGone | cellsSent => simpa [State.startEnded, State.frameGone] using law
  | resetnRelease | gathered | toneStepEnded | rowStarted | withdrawn | atMark => exact law

theorem State.Change.queueLaw {s t : State} {c : Instr} (made : s.Change c t)
    (law : s.input.queueLaw = true) : t.input.queueLaw = true := by
  cases made with
  | notDue | paused => exact law
  | refused c e =>
    rw [State.refuseDirective, State.offer_input]
    exact (s.input.chainEnded_queueLaw false).trans law
  | applied d u left offset due made =>
    rwa [State.reachOffset_queueLaw, made.sameControl.input]
  | resumed c offset left chosen due =>
    rwa [State.reachOffset_queueLaw, (s.buildReadReply_sameControl chosen).input]
  | acted c a rest t isAction opened queued made =>
    exact made.ended.queueLaw (Input.queueLaw_of_action law queued)
  | scanned rest scan waiting t opened queued scans made =>
    exact made.ended.queueLaw (Input.queueLaw_of_marker law queued scans)
  | event c t made => exact made.queueLaw law

end Sys2Proof.Machine
end

section
/-! PROOFS. Every command keeps every counted quantity in its range; with it, the laws that every step
keeps. -/

namespace Sys2Proof.Machine

open Sys2Proof

/-! ## Desk time and the deadlines (R161, R166) -/

theorem Clock.clockLaw_iff {c : Clock} : c.clockLaw = true ↔
    c.day < 65536 ∧ c.second < 86400 ∧ c.millisecond < 1000 ∧ c.accumulator < 65536 ∧
      c.addend < 65536 ∧ c.deadlines.length = 4 := by
  simp [Clock.clockLaw, and_assoc]

theorem Clock.setDeadline_clockLaw (c : Clock) (i : Nat) (d : Deadline) :
    (c.setDeadline i d).clockLaw = c.clockLaw := by
  rw [Bool.eq_iff_iff, Clock.clockLaw_iff, Clock.clockLaw_iff]
  simp [Clock.setDeadline]

theorem Clock.rearm_clockLaw (c : Clock) : c.rearm.clockLaw = c.clockLaw := by
  rw [Bool.eq_iff_iff, Clock.clockLaw_iff, Clock.clockLaw_iff]
  simp [Clock.rearm]

theorem State.fireDeadline_clock (s : State) (i : Nat) : (s.fireDeadline i).clock =
    s.clock.setDeadline i { s.clock.deadline i with state := .passed } := by
  unfold State.fireDeadline
  dsimp only
  split_ifs <;> simp

theorem State.checkDeadline_clockLaw (s : State) (i : Nat) :
    (s.checkDeadline i).clock.clockLaw = s.clock.clockLaw := by
  obtain ⟨_, eq⟩ | ⟨_, eq⟩ := s.checkDeadline_cases i
  · rw [eq, State.fireDeadline_clock, Clock.setDeadline_clockLaw]
  · rw [eq]

theorem State.checkDeadlines_clockLaw (s : State) (b : Bool) :
    (s.checkDeadlines b).clock.clockLaw = s.clock.clockLaw := by
  unfold State.checkDeadlines
  refine List.foldlRecOn (motive := fun u : State => u.clock.clockLaw = s.clock.clockLaw) _ _ ?_
    fun u same i _ => (u.checkDeadline_clockLaw i).trans same
  split
  · exact s.clock.rearm_clockLaw
  · rfl

theorem Clock.advance_clockLaw {c : Clock} (law : c.clockLaw = true) : c.advance.clockLaw = true := by
  obtain ⟨day, second, ms, accumulator, addend, deadlines⟩ := Clock.clockLaw_iff.mp law
  rw [Clock.clockLaw_iff]
  unfold Clock.advance
  simp only [millisecondSpan, secondSpan, daySpan]
  split_ifs with inSecond inDay
  · exact ⟨day, second, inSecond, accumulator, addend, deadlines⟩
  · exact ⟨day, inDay, by simp, accumulator, addend, deadlines⟩
  · exact ⟨Nat.mod_lt _ (by decide), by simp, by simp, accumulator, addend, deadlines⟩

theorem State.advanceMillisecond_clockLaw {s : State} (law : s.clock.clockLaw = true) :
    s.advanceMillisecond.clock.clockLaw = true := by
  have advanced := Clock.advance_clockLaw law
  unfold State.advanceMillisecond
  dsimp only
  split
  · exact advanced
  · rw [State.checkDeadlines_clockLaw]
    exact advanced

theorem State.carries_iff {s : State} :
    s.carries = true ↔ accumulatorSpan ≤ s.clock.accumulator + s.clock.addend := by
  rw [State.carries, decide_eq_true_iff]

/-- The addend brings the accumulator to 65,536, and a millisecond is carried (R162). -/
theorem State.accumulate_of_carries {s : State} (carries : s.carries = true) : s.accumulate =
    State.advanceMillisecond { s with clock := { s.clock with
      accumulator := s.clock.accumulator + s.clock.addend - accumulatorSpan } } := by
  rw [State.accumulate]
  exact if_pos (State.carries_iff.mp carries)

theorem State.accumulate_of_not_carries {s : State} (carries : s.carries = false) : s.accumulate =
    { s with clock := { s.clock with accumulator := s.clock.accumulator + s.clock.addend } } := by
  rw [State.accumulate]
  exact if_neg (mt State.carries_iff.mpr (by simp [carries]))

theorem Clock.clockLaw_accumulator {c : Clock} (law : c.clockLaw = true) {sum : Nat}
    (small : sum < 65536) : Clock.clockLaw { c with accumulator := sum } = true := by
  obtain ⟨day, second, ms, _, addend, deadlines⟩ := Clock.clockLaw_iff.mp law
  exact Clock.clockLaw_iff.mpr ⟨day, second, ms, small, addend, deadlines⟩

theorem State.accumulate_clockLaw {s : State} (law : s.clock.clockLaw = true) :
    s.accumulate.clock.clockLaw = true := by
  obtain ⟨_, _, _, accumulator, addend, _⟩ := Clock.clockLaw_iff.mp law
  cases carries : s.carries with
  | true =>
    rw [State.accumulate_of_carries carries]
    apply State.advanceMillisecond_clockLaw
    apply Clock.clockLaw_accumulator law
    unfold accumulatorSpan
    omega
  | false =>
    have small : ¬accumulatorSpan ≤ s.clock.accumulator + s.clock.addend :=
      mt State.carries_iff.mpr (by simp [carries])
    rw [State.accumulate_of_not_carries carries]
    apply Clock.clockLaw_accumulator law
    unfold accumulatorSpan at small
    omega

theorem State.buildReadReply_clock (s : State) (chosen : Selector) :
    (s.buildReadReply chosen).clock = s.clock := by
  cases chosen <;> simp [State.buildReadReply, State.buildReport, State.buildReadAll]

theorem State.Applied.clockLaw {s u : State} {d : Instr} (made : s.Applied d u)
    (law : s.clock.clockLaw = true) : u.clock.clockLaw = true := by
  obtain ⟨day, second, ms, accumulator, addend, deadlines⟩ := Clock.clockLaw_iff.mp law
  cases made with
  | clock d day second ms inDay inSecond inMs =>
    rw [State.checkDeadlines_clockLaw]
    exact Clock.clockLaw_iff.mpr ⟨inDay, inSecond, inMs, by simp, addend, deadlines⟩
  | rate d addend =>
    exact Clock.clockLaw_iff.mpr ⟨day, second, ms, accumulator, addend.isLt, deadlines⟩
  | deadline d i x =>
    rw [State.checkDeadline_clockLaw]
    exact (s.clock.setDeadline_clockLaw i x).trans law
  | deadlineOff d i x => exact (s.clock.setDeadline_clockLaw i x).trans law
  | read d chosen => rwa [State.buildReadReply_clock]
  | _ => exact law

theorem State.Acted.clock {s t : State} (made : s.Acted t) : t.clock = s.clock := by
  cases made <;> simp [State.buildReport]

theorem State.Scanned.clock {s t : State} (made : s.Scanned t) : t.clock = s.clock := by
  cases made <;> simp [State.buildReport]

theorem State.Event.clockLaw {s t : State} {c : Instr} (made : s.Event c t)
    (law : s.clock.clockLaw = true) : t.clock.clockLaw = true := by
  cases made with
  | powerUp | resetnAssert => rfl
  | tick =>
    rw [State.tick]
    apply State.accumulate_clockLaw
    rwa [State.countTick]
  | goodCharacter c b =>
    obtain ⟨l, eq⟩ := State.goodCharacter_line { s with line := s.line.seenAtMark } b
    rwa [eq]
  | lineReset | chainAbandoned | blockTaken | blockContinued | keyByte | scanCompleted | startEnded
    | frameFault | frameGone | cellsSent =>
    simpa [State.startEnded, State.frameGone, State.lineResetTaken] using law
  | resetnRelease | gathered | toneStepEnded | rowStarted | withdrawn | atMark => exact law

theorem State.Change.clockLaw {s t : State} {c : Instr} (made : s.Change c t)
    (law : s.clock.clockLaw = true) : t.clock.clockLaw = true := by
  cases made with
  | notDue | paused => exact law
  | refused c e => rwa [State.refuseDirective_clock]
  | applied d u left offset due made =>
    rw [State.reachOffset_clock]
    exact made.clockLaw law
  | resumed c offset left chosen due => rwa [State.reachOffset_clock, State.buildReadReply_clock]
  | acted c a rest t isAction opened queued made => rwa [made.clock]
  | scanned rest scan waiting t opened queued scans made => rwa [made.clock]
  | event c t made => exact made.clockLaw law

/-! ## The tables (R4, R86, R87, R123) -/

theorem State.Applied.sizeLaw {s u : State} {d : Instr} (made : s.Applied d u)
    (law : s.tables.sizeLaw = true) : u.tables.sizeLaw = true := by
  cases made with
  | tables d t sized => exact sized law
  | clock | deadline => simpa using law
  | read d chosen =>
    cases chosen <;> simpa [State.buildReadReply, State.buildReport, State.buildReadAll] using law
  | _ => exact law

theorem State.Acted.tables {s t : State} (made : s.Acted t) : t.tables = s.tables := by
  cases made <;> simp [State.buildReport]

theorem State.Scanned.tables {s t : State} (made : s.Scanned t) : t.tables = s.tables := by
  cases made <;> simp [State.buildReport]

theorem tablesReset_sizeLaw : tablesReset.sizeLaw = true := by
  rw [Tables.sizeLaw_iff]
  simp [tablesReset, defaultStyles, defaultKeys, defaultClasses]

theorem State.Event.sizeLaw {s t : State} {c : Instr} (made : s.Event c t)
    (law : s.tables.sizeLaw = true) : t.tables.sizeLaw = true := by
  cases made with
  | powerUp | resetnAssert => exact tablesReset_sizeLaw
  | lineReset =>
    rw [State.lineResetTaken, State.startEnded, State.offer_tables]
    rw [Tables.sizeLaw_iff] at law ⊢
    simpa using law
  | goodCharacter c b =>
    obtain ⟨l, eq⟩ := State.goodCharacter_line { s with line := s.line.seenAtMark } b
    rwa [eq]
  | tick | chainAbandoned | blockTaken | blockContinued | keyByte | scanCompleted | startEnded
    | frameFault | frameGone | cellsSent =>
    simpa [State.startEnded, State.frameGone, State.tick, State.countTick] using law
  | resetnRelease | gathered | toneStepEnded | rowStarted | withdrawn | atMark => exact law

theorem State.Change.sizeLaw {s t : State} {c : Instr} (made : s.Change c t)
    (law : s.tables.sizeLaw = true) : t.tables.sizeLaw = true := by
  cases made with
  | notDue | paused => exact law
  | refused c e => rwa [State.refuseDirective_tables]
  | applied d u left offset due made =>
    rw [State.reachOffset_tables]
    exact made.sizeLaw law
  | resumed c offset left chosen due =>
    rw [State.reachOffset_tables]
    exact (State.Applied.read c chosen).sizeLaw law
  | acted c a rest t isAction opened queued made => rwa [made.tables]
  | scanned rest scan waiting t opened queued scans made => rwa [made.tables]
  | event c t made => exact made.sizeLaw law

/-! ## The line (R176, R177) -/

/-- The notice queue and the receive buffers are within their room. -/
def Line.Roomy (l : Line) : Prop := l.notices.length ≤ noticeRoom ∧ l.buffers.length ≤ bufferRoom

theorem Line.choose_roomy {l : Line} (law : l.Roomy) : l.choose.Roomy := by
  refine ⟨?_, l.choose_buffers ▸ law.2⟩
  have room := law.1
  unfold Line.choose
  split
  · exact room
  · split
    next n rest queued =>
      rw [queued] at room
      exact (Nat.le_succ _).trans room
    · split <;> exact room

theorem State.transmit_roomy {s : State} (law : s.line.Roomy) : s.transmit.line.Roomy := by
  rw [State.transmit_line]
  split
  · exact Line.choose_roomy law
  · exact law

theorem State.offer_roomy {s : State} (law : s.line.Roomy) (n : Notice) : (s.offer n).line.Roomy := by
  apply State.transmit_roomy
  exact ⟨Line.queueNotice_length _ n law.1, (s.line.queueNotice_buffers n).symm ▸ law.2⟩

theorem State.claimReply_roomy {s : State} (law : s.line.Roomy) (b : List Byte) :
    (s.claimReply b).line.Roomy := by
  apply State.transmit_roomy
  exact law

theorem State.buildReport_roomy {s : State} (law : s.line.Roomy) (kind key : Byte) (stamp : Clock) :
    (s.buildReport kind key stamp).line.Roomy := by
  apply State.claimReply_roomy
  exact law

theorem State.buildReadReply_roomy {s : State} (law : s.line.Roomy) (chosen : Selector) :
    (s.buildReadReply chosen).line.Roomy := by
  cases chosen with
  | modified => exact State.buildReport_roomy law _ _ _
  | all =>
    apply State.claimReply_roomy
    exact law
  | screen => exact State.claimReply_roomy law _
  | status => exact State.claimReply_roomy law _

/-- The line after an entry fires: its notice is offered when the entry notifies (R169). -/
theorem State.fireDeadline_line (s : State) (i : Nat) : (s.fireDeadline i).line =
    if (s.clock.deadline i).notify then (s.offer (.deadline i)).line else s.line := by
  have offered (t : State) (line : t.line = s.line) (start : t.start = s.start) :
      (t.offer (.deadline i)).line = (s.offer (.deadline i)).line := by
    simp only [State.offer, State.transmit_line, State.started, line, start]
    rfl
  unfold State.fireDeadline
  dsimp only
  split_ifs
  · exact offered _ rfl rfl
  · exact offered _ rfl rfl
  · rfl
  · rfl

theorem State.checkDeadline_roomy {s : State} (law : s.line.Roomy) (i : Nat) :
    (s.checkDeadline i).line.Roomy := by
  obtain ⟨_, eq⟩ | ⟨_, eq⟩ := s.checkDeadline_cases i
  · rw [eq, State.fireDeadline_line]
    split
    · apply State.offer_roomy
      exact law
    · exact law
  · rwa [eq]

theorem State.checkDeadlines_roomy {s : State} (law : s.line.Roomy) (b : Bool) :
    (s.checkDeadlines b).line.Roomy := by
  unfold State.checkDeadlines
  refine List.foldlRecOn (motive := fun u : State => u.line.Roomy) _ _ ?_
    fun u ih i _ => State.checkDeadline_roomy ih i
  split <;> exact law

theorem State.endChain_roomy {s : State} (law : s.line.Roomy) (release : Bool) :
    (s.endChain release).line.Roomy :=
  ⟨law.1, (List.tail_sublist s.line.buffers).length_le.trans law.2⟩

theorem State.reachOffset_roomy {s : State} (law : s.line.Roomy) (left : Nat) :
    (s.reachOffset left).line.Roomy := by
  obtain ⟨_, eq⟩ | ⟨_, _, eq⟩ | ⟨_, _, eq⟩ := s.reachOffset_cases left
  · rw [eq]
    exact law
  · rw [eq]
    exact State.endChain_roomy law false
  · rw [eq]
    exact State.endChain_roomy law _

theorem State.goodCharacter_roomy {s : State} (law : s.line.Roomy) (b : Byte) :
    (s.goodCharacter b).line.Roomy := by
  have fault : s.frameFault.line.Roomy := by
    apply State.offer_roomy
    exact law
  unfold State.goodCharacter
  split
  · split <;> exact law
  · exact law
  · dsimp only
    split
    · exact fault
    · exact law
  · split <;> exact law
  · exact law
  · unfold State.judgeFrame State.storeFrame
    split
    · split
      next room => exact ⟨law.1, by simpa using room⟩
      · apply State.offer_roomy
        exact law
    · exact fault

theorem State.Applied.roomy {s u : State} {d : Instr} (made : s.Applied d u) (law : s.line.Roomy) :
    u.line.Roomy := by
  cases made with
  | clock =>
    apply State.checkDeadlines_roomy
    exact law
  | deadline =>
    apply State.checkDeadline_roomy
    exact law
  | read d chosen => exact State.buildReadReply_roomy law chosen
  | _ => exact law

theorem State.Acted.roomy {s t : State} (made : s.Acted t) (law : s.line.Roomy) : t.line.Roomy := by
  cases made with
  | submitted key =>
    rw [State.submitAccepted_line]
    apply State.buildReport_roomy
    exact law
  | cancelled bytes =>
    rw [State.submitAccepted_line]
    exact State.claimReply_roomy law bytes
  | refused | backRefused | submitRefused => rwa [State.keyRefused_line]
  | _ => exact law

theorem State.Scanned.roomy {s t : State} (made : s.Scanned t) (law : s.line.Roomy) :
    t.line.Roomy := by
  cases made with
  | submitted =>
    rw [State.submitAccepted_line]
    apply State.buildReport_roomy
    exact law
  | _ => exact law

theorem State.tick_roomy {s : State} (law : s.line.Roomy) : s.tick.line.Roomy := by
  have advanced {u : State} (law : u.line.Roomy) : u.advanceMillisecond.line.Roomy := by
    unfold State.advanceMillisecond
    dsimp only
    split
    · exact law
    · apply State.checkDeadlines_roomy
      exact law
  have counted : s.countTick.line.Roomy := by
    simpa [Line.Roomy, State.countTick, Line.tick] using law
  unfold State.tick
  generalize s.countTick = u at counted
  cases carries : u.carries with
  | true =>
    rw [State.accumulate_of_carries carries]
    refine advanced ?_
    dsimp only
    exact counted
  | false =>
    rw [State.accumulate_of_not_carries carries]
    exact counted

theorem State.Event.roomy {s t : State} {c : Instr} (made : s.Event c t) (law : s.line.Roomy) :
    t.line.Roomy := by
  cases made with
  | powerUp | resetnAssert => exact ⟨Nat.zero_le _, Nat.zero_le _⟩
  | lineReset =>
    apply State.offer_roomy
    exact ⟨Nat.zero_le _, Nat.zero_le _⟩
  | tick => exact State.tick_roomy law
  | goodCharacter c b =>
    apply State.goodCharacter_roomy
    exact law
  | chainAbandoned | startEnded | frameFault =>
    apply State.offer_roomy
    exact law
  | frameGone =>
    apply State.transmit_roomy
    exact law
  | blockTaken | blockContinued =>
    apply State.reachOffset_roomy
    exact law
  | keyByte c b => rwa [State.keyByte_line]
  | scanCompleted => rwa [State.scanCompleted_line]
  | cellsSent c n => rwa [State.sendCells_line]
  | resetnRelease | gathered | toneStepEnded | rowStarted | withdrawn | atMark => exact law

theorem State.Change.roomy {s t : State} {c : Instr} (made : s.Change c t) (law : s.line.Roomy) :
    t.line.Roomy := by
  cases made with
  | notDue | paused => exact law
  | refused c e =>
    apply State.offer_roomy
    exact State.endChain_roomy law false
  | applied d u left offset due made => exact State.reachOffset_roomy (made.roomy law) left
  | resumed c offset left chosen due =>
    exact State.reachOffset_roomy (State.buildReadReply_roomy law chosen) left
  | acted c a rest t isAction opened queued made => exact made.roomy law
  | scanned rest scan waiting t opened queued scans made => exact made.roomy law
  | event c t made => exact made.roomy law

/-! ## The partial scan and the display (R6, R11, R119) -/

theorem PartialScan.gather_chars {p : PartialScan} (law : p.chars.length ≤ scanLongest) (b : Byte) :
    (p.gather b).chars.length ≤ scanLongest := by
  unfold PartialScan.gather
  split
  · split
    next room => simpa using room
    · exact law
  · exact law

theorem Input.Ended.scan {i j : Input} (ended : i.Ended j) : j.scan = i.scan := by
  obtain ⟨e, _, rfl | rfl⟩ := ended <;> rfl

theorem Input.chainEnded_scan (i : Input) (release : Bool) : (i.chainEnded release).scan = i.scan := by
  unfold Input.chainEnded
  split <;> rfl

theorem Input.applicationBegun_scan (i : Input) : i.applicationBegun.scan = i.scan := by
  unfold Input.applicationBegun
  split <;> rfl

theorem State.reachOffset_scan (s : State) (left : Nat) :
    (s.reachOffset left).input.scan = s.input.scan := by
  obtain ⟨_, eq⟩ | ⟨_, _, eq⟩ | ⟨_, _, eq⟩ := s.reachOffset_cases left
  · rw [eq]
  · rw [eq]
  · rw [eq]
    exact s.input.chainEnded_scan _

theorem State.keyByte_scan (s : State) (b : Byte) : (s.keyByte b).input.scan = s.input.scan := by
  have queued (a : Action) : (s.queueAction a).input.scan = s.input.scan := by
    unfold State.queueAction
    split <;> rfl
  have pressed (code : Nat) : (s.keyPressed code).input.scan = s.input.scan := by
    unfold State.keyPressed State.resetArrives State.actionArrives
    split
    · rfl
    · split
      case h_1 | h_2 => exact queued _
      all_goals rfl
    · split
      · exact queued _
      all_goals rfl
  unfold State.keyByte
  split_ifs
  case neg => exact pressed _
  all_goals rfl

theorem State.Event.scanRoom {s t : State} {c : Instr} (made : s.Event c t)
    (law : s.input.scan.chars.length ≤ scanLongest) : t.input.scan.chars.length ≤ scanLongest := by
  cases made with
  | powerUp | resetnAssert => exact Nat.zero_le _
  | lineReset =>
    rw [State.lineResetTaken, State.startEnded, State.offer_input]
    exact Nat.zero_le _
  | goodCharacter c b =>
    obtain ⟨l, eq⟩ := State.goodCharacter_line { s with line := s.line.seenAtMark } b
    rwa [eq]
  | chainAbandoned =>
    rw [State.abandonChain, State.offer_input]
    rwa [Input.chainEnded_scan]
  | blockTaken c idle =>
    rw [State.beginBlock, State.reachOffset_scan]
    rwa [Input.applicationBegun_scan]
  | blockContinued c left chained => rwa [State.beginBlock, State.reachOffset_scan]
  | keyByte c b => rwa [State.keyByte_scan]
  | scanCompleted =>
    unfold State.scanCompleted
    dsimp only
    split_ifs <;> exact Nat.zero_le _
  | gathered c b => exact PartialScan.gather_chars law b
  | tick => simpa [State.tick, State.countTick] using law
  | startEnded | frameFault | frameGone | cellsSent =>
    simpa [State.startEnded, State.frameGone] using law
  | resetnRelease | toneStepEnded | rowStarted | withdrawn | atMark => exact law

theorem State.Change.scanRoom {s t : State} {c : Instr} (made : s.Change c t)
    (law : s.input.scan.chars.length ≤ scanLongest) : t.input.scan.chars.length ≤ scanLongest := by
  cases made with
  | notDue | paused => exact law
  | refused c e =>
    rw [State.refuseDirective, State.offer_input]
    rwa [State.endChain, Input.chainEnded_scan]
  | applied d u left offset due made => rwa [State.reachOffset_scan, made.sameControl.input]
  | resumed c offset left chosen due =>
    rwa [State.reachOffset_scan, (s.buildReadReply_sameControl chosen).input]
  | acted c a rest t isAction opened queued made => rwa [made.ended.scan]
  | scanned rest scan waiting t opened queued scans made => rwa [made.ended.scan]
  | event c t made => exact made.scanRoom law

/-- The blink count, the row counter and the column are within their ranges (R6, R11). -/
def Display.InRange (d : Display) : Prop :=
  d.blinkCount < blinkPeriod ∧ d.row < screenRows ∧ ∀ c, d.column = some c → c < screenCols

theorem Display.blink_inRange {d : Display} (law : d.InRange) : d.blink.InRange := by
  obtain ⟨_, row, column⟩ := law
  unfold Display.blink
  split
  next room => exact ⟨room, row, column⟩
  · exact ⟨by simp, row, column⟩

theorem State.sendCell_inRange {s : State} (law : s.display.InRange) : s.sendCell.display.InRange := by
  obtain ⟨blink, row, _⟩ := id law
  obtain ⟨_, eq⟩ | ⟨c, _, ⟨room, eq⟩ | ⟨_, eq⟩⟩ := s.sendCell_cases
  · rwa [eq]
  · rw [eq]
    refine ⟨blink, row, fun c' column => ?_⟩
    cases column
    exact room
  · rw [eq]
    exact ⟨blink, Nat.mod_lt _ (by decide), by simp⟩

theorem State.sendCells_inRange {s : State} (law : s.display.InRange) (n : Nat) :
    (s.sendCells n).display.InRange := by
  induction n generalizing s with
  | zero => exact law
  | succ n ih => exact ih (State.sendCell_inRange law)

theorem State.Acted.display {s t : State} (made : s.Acted t) : t.display = s.display := by
  cases made <;> simp [State.buildReport]

theorem State.Scanned.display {s t : State} (made : s.Scanned t) : t.display = s.display := by
  cases made <;> simp [State.buildReport]

theorem State.Event.inRange {s t : State} {c : Instr} (made : s.Event c t)
    (law : s.display.InRange) : t.display.InRange := by
  obtain ⟨blink, row, _⟩ := id law
  cases made with
  | powerUp | resetnAssert => simp [Display.InRange, State.powerUp, displayReset]
  | lineReset =>
    rw [State.lineResetTaken, State.startEnded, State.offer_display]
    exact ⟨blink, by simp, by simp⟩
  | goodCharacter c b =>
    obtain ⟨l, eq⟩ := State.goodCharacter_line { s with line := s.line.seenAtMark } b
    rwa [eq]
  | tick =>
    have blinked : s.tick.display = s.display.blink := by simp [State.tick, State.countTick]
    rw [blinked]
    exact Display.blink_inRange law
  | cellsSent c n => exact State.sendCells_inRange law n
  | rowStarted =>
    refine ⟨blink, row, fun c' column => ?_⟩
    cases column
    decide
  | withdrawn => exact ⟨blink, row, by simp⟩
  | chainAbandoned | blockTaken | blockContinued | keyByte | scanCompleted | startEnded | frameFault
    | frameGone =>
    simpa [State.startEnded, State.frameGone] using law
  | resetnRelease | gathered | toneStepEnded | atMark => exact law

theorem State.Change.inRange {s t : State} {c : Instr} (made : s.Change c t)
    (law : s.display.InRange) : t.display.InRange := by
  cases made with
  | notDue | paused => exact law
  | refused c e => rwa [State.refuseDirective_display]
  | applied d u left offset due made => rwa [State.reachOffset_display, made.sameControl.display]
  | resumed c offset left chosen due =>
    rwa [State.reachOffset_display, (s.buildReadReply_sameControl chosen).display]
  | acted c a rest t isAction opened queued made => rwa [made.display]
  | scanned rest scan waiting t opened queued scans made => rwa [made.display]
  | event c t made => exact made.inRange law

/-! ## The laws that every step keeps -/

theorem State.rangeLaw_iff {s : State} : s.rangeLaw = true ↔
    s.clock.clockLaw = true ∧ s.tables.sizeLaw = true ∧ s.form.historiesLaw ∧ s.line.Roomy ∧
      s.input.scan.chars.length ≤ scanLongest ∧ s.display.InRange := by
  simp only [State.rangeLaw, Bool.and_eq_true, decide_eq_true_iff, Option.all_eq_true, Line.Roomy,
    Form.historiesLaw, Display.InRange, Form.savedPlace_eq_some_iff, forall_exists_index, and_imp]
  constructor
  · rintro ⟨⟨⟨⟨⟨⟨⟨⟨⟨clock, tables⟩, history⟩, saved⟩, notices⟩, buffers⟩, scan⟩, blink⟩, row⟩, column⟩
    refine ⟨clock, tables, ⟨history, ?_⟩, ⟨notices, buffers⟩, scan, blink, row, column⟩
    rintro _ o opened rfl
    exact saved o opened
  · rintro ⟨clock, tables, ⟨history, saved⟩, ⟨notices, buffers⟩, scan, blink, row, column⟩
    exact ⟨⟨⟨⟨⟨⟨⟨⟨⟨clock, tables⟩, history⟩, fun o opened => saved _ o opened rfl⟩, notices⟩, buffers⟩,
      scan⟩, blink⟩, row⟩, column⟩

theorem State.Change.rangeLaw {s t : State} {c : Instr} (made : s.Change c t)
    (law : s.rangeLaw = true) : t.rangeLaw = true := by
  obtain ⟨clock, tables, histories, line, scan, display⟩ := State.rangeLaw_iff.mp law
  have sound (p : Nat) : ∀ a f, fieldRecord a p = .ok f → True ∧ f.modified = false := by
    intro a f asked
    obtain ⟨_, _, kind, cls, _, _, _, rfl⟩ := fieldRecord_ok asked
    exact ⟨trivial, rfl⟩
  exact State.rangeLaw_iff.mpr ⟨made.clockLaw clock, made.sizeLaw tables,
    Form.invariant_historiesLaw.change (sound _) made histories, made.roomy line, made.scanRoom scan,
    made.inRange display⟩

theorem State.sendCell_rangeLaw {s : State} (law : s.rangeLaw = true) : s.sendCell.rangeLaw = true := by
  obtain ⟨clock, tables, histories, line, scan, display⟩ := State.rangeLaw_iff.mp law
  rw [State.rangeLaw_iff, State.sendCell_clock, State.sendCell_tables, State.sendCell_form,
    State.sendCell_line, State.sendCell_input]
  exact ⟨clock, tables, histories, line, scan, State.sendCell_inRange display⟩

/-- Settles O57: each law is kept by every command and by a cell of the display. -/
theorem entryQueueStoreRangeLawsKept : Obligations.EntryQueueStoreRangeLawsKept := by
  refine ⟨?held, ?queues, ?stores, ?ranges⟩
  case held =>
    intro s t law stepped
    obtain ⟨_, rfl⟩ | ⟨c, rest, _, made⟩ := step_cases stepped
    · rwa [State.heldLaw, State.sendCell_input, State.sendCell_stream]
    · exact made.heldLaw law
  case queues =>
    intro s t law stepped
    obtain ⟨_, rfl⟩ | ⟨c, rest, _, made⟩ := step_cases stepped
    · rwa [State.sendCell_input]
    · exact made.queueLaw law
  case stores =>
    intro s t law stepped
    refine Form.invariant_storeLaw.step (fun a f asked => ?_) stepped law
    obtain ⟨_, _, kind, cls, _, _, _, rfl⟩ := fieldRecord_ok asked
    exact ⟨trivial, rfl⟩
  case ranges =>
    intro s t law stepped
    obtain ⟨_, rfl⟩ | ⟨c, rest, _, made⟩ := step_cases stepped
    · exact State.sendCell_rangeLaw law
    · exact made.rangeLaw law

/-! ## The write position (R40) -/

theorem Form.hostRun_position {fm : Form} {p : Nat} (inStore : p < cellCount) (cells : List Cell) :
    (fm.hostRun p cells).2.1 < cellCount := by
  induction cells generalizing fm p with
  | nil => exact inStore
  | cons c rest ih => exact ih (Nat.mod_lt _ (by decide))

theorem State.reachOffset_writePos {s : State} (inStore : s.stream.writePos < cellCount)
    (left : Nat) : (s.reachOffset left).stream.writePos < cellCount := by
  obtain ⟨_, eq⟩ | ⟨_, _, eq⟩ | ⟨_, _, eq⟩ := s.reachOffset_cases left
  · rwa [eq]
  · rwa [eq]
  · rw [eq]
    exact Nat.succ_pos _

theorem State.Applied.writePos_lt {s u : State} {d : Instr} (made : s.Applied d u)
    (inStore : s.stream.writePos < cellCount) : u.stream.writePos < cellCount := by
  cases made with
  | writePos d p inStore => exact inStore
  | run d cells => exact Form.hostRun_position inStore cells
  | cleared => exact Nat.succ_pos _
  | clock | deadline => simpa using inStore
  | read d chosen =>
    cases chosen <;>
      simpa [State.buildReadReply, State.buildReport, State.buildReadAll] using inStore
  | _ => exact inStore

theorem State.Event.writePos {s t : State} {c : Instr} (made : s.Event c t)
    (inStore : s.stream.writePos < cellCount) : t.stream.writePos < cellCount := by
  cases made with
  | powerUp | resetnAssert => exact Nat.succ_pos _
  | lineReset =>
    rw [State.lineResetTaken, State.startEnded, State.offer_stream]
    exact Nat.succ_pos _
  | goodCharacter c b =>
    obtain ⟨l, eq⟩ := State.goodCharacter_line { s with line := s.line.seenAtMark } b
    rwa [eq]
  | chainAbandoned =>
    rw [State.abandonChain, State.offer_stream]
    exact Nat.succ_pos _
  | blockTaken =>
    apply State.reachOffset_writePos
    exact Nat.succ_pos _
  | blockContinued =>
    apply State.reachOffset_writePos
    exact inStore
  | tick => simpa [State.tick, State.countTick] using inStore
  | keyByte | scanCompleted | startEnded | frameFault | frameGone | cellsSent =>
    simpa [State.startEnded, State.frameGone] using inStore
  | resetnRelease | gathered | toneStepEnded | rowStarted | withdrawn | atMark => exact inStore

theorem State.Change.writePos {s t : State} {c : Instr} (made : s.Change c t)
    (inStore : s.stream.writePos < cellCount) : t.stream.writePos < cellCount := by
  cases made with
  | notDue | paused => exact inStore
  | refused c e =>
    rw [State.refuseDirective, State.offer_stream]
    exact Nat.succ_pos _
  | applied d u left offset due made => exact State.reachOffset_writePos (made.writePos_lt inStore) left
  | resumed c offset left chosen due =>
    exact State.reachOffset_writePos ((State.Applied.read c chosen).writePos_lt inStore) left
  | acted c a rest t isAction opened queued made => rwa [made.stream]
  | scanned rest scan waiting t opened queued scans made => rwa [made.stream]
  | event c t made => exact made.writePos inStore

/-- Settles O58: the table, the cursor and the marks are kept as laws of the form, and the write position
stays at a cell. -/
theorem tableLawKept : Obligations.TableLawKept := by
  have sound {s : State} (law : s.tableLaw = true) : ∀ a f,
      fieldRecord a s.stream.writePos = .ok f → f.placed = true ∧ f.modified = false :=
    fun _ _ asked => fieldRecord_sound (State.tableLaw_iff.mp law).2 asked
  have lawful {s : State} (law : s.tableLaw = true) := (State.tableLaw_iff.mp law).1
  refine ⟨?table, ?cursor, ?modified⟩
  case table =>
    intro s t law stepped
    refine State.tableLaw_iff.mpr
      ⟨Form.invariant_lawful.step (sound law) stepped (lawful law), ?_⟩
    have inStore := (State.tableLaw_iff.mp law).2
    obtain ⟨_, rfl⟩ | ⟨c, rest, _, made⟩ := step_cases stepped
    · rwa [State.sendCell_stream]
    · exact made.writePos inStore
  case cursor =>
    intro s t law cursor stepped
    exact (Form.invariant_cursorLaw.step (sound law) stepped ⟨lawful law, cursor⟩).2
  case modified =>
    intro s t law marks stepped
    exact (Form.invariant_modifiedLaw.step (sound law) stepped ⟨lawful law, marks⟩).2

end Sys2Proof.Machine
end

section
/-! PROOFS. Unsubmitted content is protected (R37 to R39): a modified ENTRY field stands, glyph by glyph, under
every write to other records, every held-off host write and every change of the table and the window. -/

namespace Sys2Proof.Machine

open Sys2Proof

/-! ## What stands -/

/-- The form is in order and holds the record of a tag as defined, modified and with some glyphs. -/
structure Form.Carries (fm : Form) (f : Field) (glyphs : List Byte) : Prop where
  lawful : fm.lawful = true
  canonical : fm.storeLaw = true
  held : ∃ g susp, fm.record f.tag = some (g, susp) ∧ g.definition = f.definition ∧
    g.modified = true ∧ fm.content susp g = glyphs

/-- A record of the tag and the extent is in one of the two lists. -/
def Form.holdsPlace (fm : Form) (susp : Bool) (f : Field) : Prop :=
  ∃ r ∈ fm.records susp, r.tag = f.tag ∧ r.start = f.start ∧ r.length = f.length

theorem Form.mapRecords_holdsPlace {fm : Form} {g : Field → Field} (keeps : Field.KeepsPlace g)
    {susp : Bool} {f : Field} (holds : fm.holdsPlace susp f) :
    (fm.mapRecords g).holdsPlace susp f := by
  obtain ⟨r, mem, tag, start, length⟩ := holds
  refine ⟨g r, ?_, (keeps.tag r).trans tag, (keeps.start r).trans start, (keeps.length r).trans length⟩
  rw [Form.mapRecords_records]
  exact List.mem_map_of_mem mem

theorem Form.kept_holdsPlace (susp : Bool) (f : Field) : Form.Kept fun fm => fm.holdsPlace susp f where
  write susp' n p l law := by rwa [Form.holdsPlace, Form.writeGlyphs_records]
  records retains law := Form.mapRecords_holdsPlace retains.toKeepsPlace law
  raise {_ t} _ law := Form.mapRecords_holdsPlace (Field.keepsPlace_modified.ofTag t) law
  cursor _ law := law
  insert _ law := law
  visit _ law := law
  push _ law := law
  pop _ law := law

/-- A change of marks that leaves the modified mark where it is set. -/
def Field.LeavesModified (g : Field → Field) : Prop :=
  ∀ f, (g f).definition = f.definition ∧ (f.modified = true → (g f).modified = true)

theorem Field.LeavesModified.keepsPlace {g : Field → Field} (leaves : Field.LeavesModified g) :
    Field.KeepsPlace g where
  tag f := congrArg (·.tag) (leaves f).1
  start f := congrArg (·.start) (leaves f).1
  length f := congrArg (·.length) (leaves f).1

theorem Field.LeavesModified.ofTag {g : Field → Field} (leaves : Field.LeavesModified g) (t : Nat) :
    Field.LeavesModified fun f => if f.tag = t then g f else f := fun f => by
  dsimp only
  split_ifs
  exacts [leaves f, ⟨rfl, id⟩]

theorem Field.leavesModified_errorMark (e : Option ErrorKind) :
    Field.LeavesModified fun f => { f with errorMark := e } := fun _ => ⟨rfl, id⟩

theorem Field.leavesModified_alert (a : Option Alert) :
    Field.LeavesModified fun f => { f with alert := a } := fun _ => ⟨rfl, id⟩

theorem Field.leavesModified_collision (b : Bool) :
    Field.LeavesModified fun f => { f with collision := b } := fun _ => ⟨rfl, id⟩

section

variable {fm : Form} {f : Field} {glyphs : List Byte}

/-- A record of another kind than the protected one's has another tag. -/
theorem Form.Carries.tag_ne (carries : fm.Carries f glyphs) {g : Field} {susp : Bool}
    (mem : g ∈ fm.records susp) (kind : g.kind ≠ f.kind) : g.tag ≠ f.tag := fun same => by
  obtain ⟨h, susp', held, defined, _⟩ := carries.held
  have law := Form.lawful_iff.mp carries.lawful
  have held' := law.record_iff.mpr ⟨mem, same⟩
  cases held.symm.trans held'
  exact kind (congrArg (·.kind) defined)

theorem Form.Carries.mapRecords (carries : fm.Carries f glyphs) {g : Field → Field}
    (leaves : Field.LeavesModified g) : (fm.mapRecords g).Carries f glyphs where
  lawful := (Form.mapRecords_lawful leaves.keepsPlace).trans carries.lawful
  canonical := by rw [Form.mapRecords_storeLaw, carries.canonical]
  held := by
    obtain ⟨h, susp, held, defined, marked, content⟩ := carries.held
    refine ⟨g h, susp, ?_, (leaves h).1.trans defined, (leaves h).2 marked, ?_⟩
    · rw [Form.mapRecords_record leaves.keepsPlace, held, Option.map_some]
    · rw [Form.mapRecords_content,
        Form.content_of_extent (leaves.keepsPlace.start h) (leaves.keepsPlace.length h), content]

theorem Form.Carries.mapTag (carries : fm.Carries f glyphs) {g : Field → Field}
    (leaves : Field.LeavesModified g) (t : Nat) : (fm.mapTag t g).Carries f glyphs :=
  carries.mapRecords (leaves.ofTag t)

/-- A change of another record alone. -/
theorem Form.Carries.mapOther (carries : fm.Carries f glyphs) {g : Field → Field}
    (keeps : Field.KeepsPlace g) {t : Nat} (other : t ≠ f.tag) : (fm.mapTag t g).Carries f glyphs where
  lawful := (Form.mapRecords_lawful (keeps.ofTag t)).trans carries.lawful
  canonical := by rw [Form.mapTag, Form.mapRecords_storeLaw, carries.canonical]
  held := by
    obtain ⟨h, susp, held, parts⟩ := carries.held
    refine ⟨h, susp, ?_, by rwa [Form.mapTag, Form.mapRecords_content]⟩
    rw [Form.mapTag_record keeps, if_neg other.symm, held]

/-- A write to another record's cells (R19). -/
theorem Form.Carries.writeContent (carries : fm.Carries f glyphs) {susp : Bool} {g : Field}
    (place : fm.holdsPlace susp g) (other : g.tag ≠ f.tag) (l : List Byte) :
    (fm.writeContent susp g l).Carries f glyphs where
  lawful := (fm.writeContent_lawful susp g l).trans carries.lawful
  canonical := Form.writeContent_storeLaw carries.canonical susp g l
  held := by
    obtain ⟨h, susp', held, defined, marked, content⟩ := carries.held
    obtain ⟨r, mem, tag, start, length⟩ := place
    have law := Form.lawful_iff.mp carries.lawful
    obtain ⟨mem', tag'⟩ := law.record_iff.mp held
    refine ⟨h, susp', by rw [Form.writeContent_record, held], defined, marked, ?_⟩
    rw [← content]
    refine Form.content_congr fun q covered => ?_
    have window := Form.inSaved_congr (fm.writeContent_window susp g l)
    rw [Form.cellOf_eq_storedCell, Form.cellOf_eq_storedCell, window, Form.writeContent,
      Form.writeFrom_storedCell carries.canonical, if_neg]
    rintro ⟨inside, same⟩
    have coveredToo : r.covers q = true := by
      rw [Field.covers_iff]
      omega
    refine law.inSaved_ne mem' mem ?_ covered coveredToo same
    rw [tag', tag]
    exact other.symm

/-! ## What follows a change: the tallies, the exit test, the clocks and the deadlines -/

theorem Form.holdsPlace_of_record (law : fm.Lawful) {t : Nat} {g : Field} {susp : Bool}
    (held : fm.record t = some (g, susp)) : fm.holdsPlace susp g :=
  ⟨g, (law.record_iff.mp held).1, rfl, rfl, rfl⟩

theorem Form.tallyMarked_leavesModified (fm : Form) (g : Field) (n : NumPart) :
    Field.LeavesModified (fm.tallyMarked g n) := by
  unfold Form.tallyMarked
  cases g.sources <;> exact fun _ => ⟨rfl, id⟩

theorem Form.Carries.recomputeTally (carries : fm.Carries f glyphs) (entry : f.kind = .entry)
    (t : Nat) : (fm.recomputeTally t).Carries f glyphs := by
  by_cases due : ∃ g susp n, fm.record t = some (g, susp) ∧ g.kind = .tally ∧ g.cls = .numeric n
  · obtain ⟨g, susp, n, held, isTally, numeric⟩ := due
    have law := Form.lawful_iff.mp carries.lawful
    have other := carries.tag_ne (law.record_iff.mp held).1 (by simp [isTally, entry])
    rw [Form.recomputeTally_of held isTally numeric]
    exact (carries.writeContent (Form.holdsPlace_of_record law held) other _).mapTag
      (fm.tallyMarked_leavesModified g n) t
  · rwa [Form.recomputeTally_of_not fun g susp n held isTally numeric =>
      due ⟨g, susp, n, held, isTally, numeric⟩]

theorem Form.Carries.recomputeNaming (carries : fm.Carries f glyphs) (entry : f.kind = .entry)
    (tags : List Nat) : (fm.recomputeNaming tags).Carries f glyphs := by
  rw [Form.recomputeNaming_eq]
  exact List.foldlRecOn (motive := fun g : Form => g.Carries f glyphs) _ _ carries
    fun g ih t _ => ih.recomputeTally entry t

theorem Form.Carries.setError (carries : fm.Carries f glyphs) (t : Nat) (e : Option ErrorKind) :
    (fm.setError t e).Carries f glyphs :=
  carries.mapTag (Field.leavesModified_errorMark e) t

theorem Form.Carries.normalise (carries : fm.Carries f glyphs) {susp : Bool} {g : Field}
    (place : fm.holdsPlace susp g) (other : g.tag ≠ f.tag) : (fm.normalise susp g).Carries f glyphs := by
  unfold Form.normalise
  split
  · split
    · split
      · exact carries.writeContent place other _
      all_goals exact carries
    · exact carries
  · exact carries

theorem Form.Carries.applyExitTest (carries : fm.Carries f glyphs) (entry : f.kind = .entry)
    {g : Field} (place : fm.holdsPlace false g) (other : g.tag ≠ f.tag) :
    (fm.applyExitTest g).Carries f glyphs := by
  have marked := carries.setError g.tag (exitTest g (fm.content false g))
  unfold Form.applyExitTest
  dsimp only
  refine Form.Carries.recomputeNaming ?_ entry _
  split
  · exact marked.normalise ((Form.kept_holdsPlace false g).setError _ _ place) other
  · exact marked

/-- Parts of the form that hold neither records nor cells do not matter. -/
theorem Form.Carries.congr {fm' : Form} (carries : fm.Carries f glyphs)
    (active : fm'.active = fm.active) (overlay : fm'.overlay = fm.overlay)
    (cells : fm'.cells = fm.cells) : fm'.Carries f glyphs := by
  obtain ⟨cells', active', overlay', cursor, insert, visit, history⟩ := fm'
  cases active
  cases overlay
  cases cells
  exact ⟨carries.lawful, carries.canonical, carries.held⟩

/-- Exit processing rewrites the current field alone, and only after a visit (R102). -/
theorem Form.Carries.exitProcess (carries : fm.Carries f glyphs) (entry : f.kind = .entry)
    (away : fm.visit = true → fm.isCurrent f.tag = false) : fm.exitProcess.Carries f glyphs := by
  unfold Form.exitProcess
  split
  next g current =>
    split
    next visited =>
      have other : g.tag ≠ f.tag := by simpa [Form.isCurrent, current] using away visited
      have place : fm.holdsPlace false g := ⟨g, (Form.mem_active_of_fieldAt current).1, rfl, rfl, rfl⟩
      exact (carries.applyExitTest entry place other).congr rfl rfl rfl
    · exact carries
  · exact carries

theorem Form.Carries.moveTo (carries : fm.Carries f glyphs) (entry : f.kind = .entry)
    (away : fm.visit = true → fm.isCurrent f.tag = false) (insertAtEntry push : Bool) (p : Nat) :
    (fm.moveTo insertAtEntry push p).Carries f glyphs := by
  obtain ⟨_, eq⟩ | ⟨_, eq⟩ := fm.moveTo_cases insertAtEntry push p
  · rw [eq]
    exact carries.congr rfl rfl rfl
  · rw [eq]
    exact (carries.exitProcess entry away).congr rfl rfl rfl

theorem Form.Carries.writeClocks (carries : fm.Carries f glyphs) (entry : f.kind = .entry)
    (second : Nat) (due : Nat → Bool) : (fm.writeClocks second due).Carries f glyphs := by
  have each (susp : Bool) {h : Form} (carries : h.Carries f glyphs)
      (places : ∀ susp, ∀ g ∈ fm.records susp, h.holdsPlace susp g) :
      ((fm.records susp).foldl (fun h g =>
        if g.kind = .clock && due g.length then h.writeClock second susp g else h) h).Carries f glyphs ∧
      ∀ susp', ∀ g ∈ fm.records susp', Form.holdsPlace ((fm.records susp).foldl (fun h g =>
        if g.kind = .clock && due g.length then h.writeClock second susp g else h) h) susp' g := by
    refine List.foldlRecOn (motive := fun h : Form => h.Carries f glyphs ∧
      ∀ susp', ∀ g ∈ fm.records susp', h.holdsPlace susp' g) _ _ ⟨carries, places⟩ ?_
    rintro u ⟨carries', places'⟩ g mem
    split
    next isClock =>
      obtain ⟨isClock, _⟩ := Bool.and_eq_true_iff.mp isClock
      have other : g.tag ≠ f.tag :=
        Form.Carries.tag_ne ‹fm.Carries f glyphs› mem (by simp [of_decide_eq_true isClock, entry])
      refine ⟨carries'.writeContent (places' susp g mem) other _, fun susp' k mem' => ?_⟩
      exact (Form.kept_holdsPlace susp' k).writeContent susp g _ (places' susp' k mem')
    · exact ⟨carries', places'⟩
  have active := each false carries fun susp g mem => ⟨g, mem, rfl, rfl, rfl⟩
  exact (each true active.1 active.2).1

theorem State.fireDeadline_carries {s : State} (carries : s.form.Carries f glyphs) (i : Nat) :
    (s.fireDeadline i).form.Carries f glyphs := by
  rw [State.fireDeadline_form]
  split
  · exact carries
  · exact carries.mapTag (Field.leavesModified_alert _) _

theorem State.checkDeadline_carries {s : State} (carries : s.form.Carries f glyphs) (i : Nat) :
    (s.checkDeadline i).form.Carries f glyphs := by
  obtain ⟨_, eq⟩ | ⟨_, eq⟩ := s.checkDeadline_cases i
  · rw [eq]
    exact State.fireDeadline_carries carries i
  · rwa [eq]

theorem State.checkDeadlines_carries {s : State} (carries : s.form.Carries f glyphs) (b : Bool) :
    (s.checkDeadlines b).form.Carries f glyphs := by
  unfold State.checkDeadlines
  refine List.foldlRecOn (motive := fun u : State => u.form.Carries f glyphs) _ _ ?_
    fun u ih i _ => State.checkDeadline_carries ih i
  split <;> exact carries

theorem State.tick_carries {s : State} (carries : s.form.Carries f glyphs) (entry : f.kind = .entry) :
    s.tick.form.Carries f glyphs := by
  have advanced {u : State} (carries : u.form.Carries f glyphs) :
      u.advanceMillisecond.form.Carries f glyphs := by
    unfold State.advanceMillisecond
    dsimp only
    split
    · exact carries
    · apply State.checkDeadlines_carries
      dsimp only
      exact carries.writeClocks entry _ _
  have counted : s.countTick.form.Carries f glyphs := by
    rwa [State.countTick]
  unfold State.tick
  generalize s.countTick = u at counted
  cases carries : u.carries with
  | true =>
    rw [State.accumulate_of_carries carries]
    refine advanced ?_
    dsimp only
    exact counted
  | false =>
    rw [State.accumulate_of_not_carries carries]
    exact counted

theorem State.buildReadReply_carries {s : State} (carries : s.form.Carries f glyphs)
    (chosen : Selector) : (s.buildReadReply chosen).form.Carries f glyphs := by
  cases chosen with
  | modified =>
    rw [State.buildReadReply, State.buildReport, State.claimReply_form]
    exact carries.mapRecords fun f => by split_ifs <;> exact ⟨rfl, id⟩
  | all =>
    rw [State.buildReadReply, State.buildReadAll, State.claimReply_form]
    exact carries.mapRecords fun _ => ⟨rfl, id⟩
  | screen => simpa [State.buildReadReply] using carries
  | status => simpa [State.buildReadReply] using carries

end

/-! ## Host writes are held off (R37, R38) -/

section

variable {fm : Form} {f : Field} {glyphs : List Byte}

theorem Form.Lawful.suspendedAt_iff (law : fm.Lawful) {p : Nat} {g : Field} :
    fm.suspendedAt p = some g ↔
      fm.inWindow p = false ∧ g ∈ fm.suspended ∧ g.covers p = true := by
  unfold Form.suspendedAt
  cases fm.inWindow p with
  | true => simp
  | false =>
    simp only [Bool.false_eq_true, if_false, true_and]
    exact find?_covers_eq_some_iff law.suspendedOrder

/-- The owner of a screen cell is the one record whose glyph stands there (R37, R38). -/
theorem Form.Lawful.writeOwner_iff (law : fm.Lawful) {p : Nat} {g : Field} :
    fm.writeOwner p = some g ↔
      ∃ susp, g ∈ fm.records susp ∧ g.covers p = true ∧ fm.inSaved susp p = false := by
  unfold Form.writeOwner
  cases found : fm.fieldAt p with
  | some h =>
    obtain ⟨active, covered⟩ := law.fieldAt_iff.mp found
    constructor
    · rintro ⟨⟩
      exact ⟨false, active, covered, rfl⟩
    · rintro ⟨susp, mem, covered', screen⟩
      by_contra differ
      have tags : h.tag ≠ g.tag := fun same => by
        have first : fm.record h.tag = some (h, false) := law.record_iff.mpr ⟨active, rfl⟩
        have second := law.record_iff.mpr ⟨mem, same.symm⟩
        cases first.symm.trans second
        exact differ rfl
      exact law.inSaved_ne (susp := false) active mem tags covered covered' screen.symm
  | none =>
    have none := Form.fieldAt_eq_none_iff.mp found
    simp only [law.suspendedAt_iff]
    constructor
    · rintro ⟨outside, mem, covered⟩
      exact ⟨true, mem, covered, outside⟩
    · rintro ⟨susp, mem, covered, screen⟩
      cases susp with
      | true => exact ⟨screen, mem, covered⟩
      | false =>
        rw [none g mem] at covered
        cases covered

theorem Form.hostCell_eq (fm : Form) (p : Nat) (c : Cell) : fm.hostCell p c =
    (fm.writeOwner p).elim (fm.setScreen p c, none) fun g =>
      if g.modified then (fm.mapTag g.tag fun h => { h with collision := true }, none)
      else (fm.setScreen p c, some g.tag) := by
  unfold Form.hostCell Form.writeOwner
  cases fm.fieldAt p with
  | some g => rfl
  | none => cases fm.suspendedAt p <;> rfl

/-- A write of a screen cell that is none of the field's (R18). -/
theorem Form.Carries.setScreen (carries : fm.Carries f glyphs) {p : Nat} (c : Cell)
    (clear : ∀ g, fm.writeOwner p = some g → g.tag ≠ f.tag) : (fm.setScreen p c).Carries f glyphs where
  lawful := carries.lawful
  canonical := Form.setCellOf_storeLaw carries.canonical false p c
  held := by
    obtain ⟨h, susp, held, defined, marked, content⟩ := carries.held
    refine ⟨h, susp, held, defined, marked, ?_⟩
    have law := Form.lawful_iff.mp carries.lawful
    obtain ⟨mem, tag⟩ := law.record_iff.mp held
    rw [← content]
    refine Form.content_congr fun q covered => ?_
    rw [Form.cellOf_eq_storedCell, Form.cellOf_eq_storedCell]
    have stored := Form.setCellOf_storedCell carries.canonical false p c (fm.inSaved susp q) q
    refine stored.trans (if_neg ?_)
    rintro ⟨rfl, screen⟩
    exact clear h (law.writeOwner_iff.mpr ⟨susp, mem, covered, screen⟩) tag

theorem Form.Carries.hostCell (carries : fm.Carries f glyphs) (p : Nat) (c : Cell) :
    (fm.hostCell p c).1.Carries f glyphs := by
  rw [Form.hostCell_eq]
  cases owner : fm.writeOwner p with
  | none => exact carries.setScreen c (by simp [owner])
  | some g =>
    rw [Option.elim_some]
    cases modified : g.modified with
    | true =>
      rw [if_pos rfl]
      exact carries.mapTag (Field.leavesModified_collision true) _
    | false =>
      refine carries.setScreen c fun g' owner' same => ?_
      cases owner.symm.trans owner'
      have law := Form.lawful_iff.mp carries.lawful
      obtain ⟨susp, mem, _⟩ := law.writeOwner_iff.mp owner
      obtain ⟨h, susp', held, _, marked, _⟩ := carries.held
      cases held.symm.trans (law.record_iff.mpr ⟨mem, same⟩)
      rw [marked] at modified
      cases modified

theorem Form.Carries.hostRun (carries : fm.Carries f glyphs) (p : Nat) (cells : List Cell) :
    (fm.hostRun p cells).1.Carries f glyphs := by
  induction cells generalizing fm p with
  | nil => exact carries
  | cons c rest ih => exact ih (carries.hostCell p c) (nextPosition p)

/-! ## Changes of the table and the window -/

theorem Form.Carries.putText (carries : fm.Carries f glyphs) (entry : f.kind = .entry) {susp : Bool}
    {g : Field} (place : fm.holdsPlace susp g) (other : g.tag ≠ f.tag) (text : List Byte) :
    (fm.putText susp g text).Carries f glyphs := by
  have rewritten (checked : Bool) (verdict : Option ErrorKind) :
      let marked := (fm.writeContent susp g (placedText g text)).setError g.tag verdict
      (if checked && verdict.isNone then marked.normalise susp g else marked).Carries f glyphs := by
    have marked := (carries.writeContent place other (placedText g text)).setError g.tag verdict
    have kept := Form.kept_holdsPlace susp g
    dsimp only
    split
    · exact marked.normalise (kept.setError _ _ (kept.writeContent _ _ _ place)) other
    · exact marked
  have keeps : Field.KeepsPlace fun h => { h with modified := false } :=
    ⟨fun _ => rfl, fun _ => rfl, fun _ => rfl⟩
  unfold Form.putText
  dsimp only
  refine Form.Carries.recomputeNaming ?_ entry _
  exact ((rewritten _ _).mapOther keeps other).congr rfl rfl rfl

/-- A change of the two lists that leaves the protected record in its list and its cells in their store. -/
theorem Form.Carries.of_records {fm' : Form} (carries : fm.Carries f glyphs)
    (lawful : fm'.lawful = true) (canonical : fm'.storeLaw = true)
    (mem : ∀ susp, ∀ g ∈ fm.records susp, g.tag = f.tag → g.modified = true →
      ∃ susp', g ∈ fm'.records susp' ∧
        ∀ p, g.covers p = true → fm'.cellOf susp' p = fm.cellOf susp p) :
    fm'.Carries f glyphs where
  lawful := lawful
  canonical := canonical
  held := by
    obtain ⟨h, susp, held, defined, marked, content⟩ := carries.held
    obtain ⟨mem', tag⟩ := (Form.lawful_iff.mp carries.lawful).record_iff.mp held
    obtain ⟨susp', mem'', cells⟩ := mem susp h mem' tag marked
    refine ⟨h, susp', (Form.lawful_iff.mp lawful).record_iff.mpr ⟨mem'', tag⟩, defined, marked, ?_⟩
    rw [← content]
    exact Form.content_congr cells

theorem Form.cellOf_congr {fm' : Form} (cells : fm'.cells = fm.cells)
    (saved : ∀ p, fm'.savedCell p = fm.savedCell p) (window : fm'.window = fm.window) (susp : Bool)
    (p : Nat) : fm'.cellOf susp p = fm.cellOf susp p := by
  simp only [Form.cellOf_eq_storedCell, Form.storedCell, Form.inSaved_congr window, cells, saved]

theorem Form.dropTags_cellOf (fm : Form) (tags : List Nat) (susp : Bool) (p : Nat) :
    (fm.dropTags tags).cellOf susp p = fm.cellOf susp p := by
  refine Form.cellOf_congr (fm := fm) (fm' := fm.dropTags tags) rfl (fun p => ?_) ?_ susp p
  · unfold Form.dropTags Form.savedCell
    cases fm.overlay <;> rfl
  · rw [Form.window_eq_savedPlace, Form.window_eq_savedPlace, Form.dropTags_savedPlace]

theorem Form.dropTags_records (fm : Form) (tags : List Nat) (susp : Bool) :
    (fm.dropTags tags).records susp = (fm.records susp).filter fun g => !tags.contains g.tag := by
  cases susp with
  | false => exact Form.dropTags_active tags
  | true => exact Form.dropTags_suspended tags

theorem Form.Carries.dropTags (carries : fm.Carries f glyphs) {tags : List Nat}
    (stays : f.tag ∉ tags) : (fm.dropTags tags).Carries f glyphs :=
  carries.of_records (Form.invariant_lawful.drop tags carries.lawful)
    (Form.invariant_storeLaw.drop tags carries.canonical) fun susp g mem tag _ =>
      ⟨susp, by simpa [Form.dropTags_records, mem, tag] using stays,
        fun p _ => fm.dropTags_cellOf tags susp p⟩

theorem Form.mem_entered_records {g h : Field} {susp : Bool}
    (mem : g ∈ (fm.dropTags ((fm.overlapped h).map (·.tag))).records susp) :
    g ∈ (fm.entered h).records susp := by
  cases susp with
  | false => exact mem_insertByStart.mpr (.inr mem)
  | true => exact mem

theorem Form.Carries.entered (carries : fm.Carries f glyphs) {g : Field} (placed : g.placed = true)
    (fresh : g.modified = false) (reachable : fm.reachable g = true) (unsuspended : fm.suspendedTag g.tag = none)
    (unmodified : ∀ h ∈ fm.overlapped g, h.modified = false)
    (room : fm.active.length - (fm.overlapped g).length + fm.suspended.length < poolSize) :
    (fm.entered g).Carries f glyphs := by
  have law := Form.lawful_iff.mp carries.lawful
  refine carries.of_records
    (Form.lawful_iff.mpr (law.entered placed reachable unsuspended room))
    (Form.invariant_storeLaw.enter trivial fresh reachable unsuspended room carries.canonical)
    fun susp h mem tag marked =>
      ⟨susp, Form.mem_entered_records ?_, fun p _ => fm.dropTags_cellOf _ susp p⟩
  rw [Form.dropTags_records, List.mem_filter, Bool.not_eq_true', ← Bool.not_eq_true,
    List.contains_iff_mem, List.mem_map]
  refine ⟨mem, fun ⟨k, way, same⟩ => ?_⟩
  have sameRecord : k = h := by
    have first : fm.record k.tag = some (k, false) :=
      law.record_iff.mpr ⟨(Form.mem_overlapped.mp way).1, rfl⟩
    have second := law.record_iff.mpr ⟨mem, same.symm⟩
    cases first.symm.trans second
    rfl
  have := unmodified k way
  rw [sameRecord, marked] at this
  cases this

theorem Window.mem_positions_iff {w : Window} (fits : w.fits = true) {p : Nat} :
    p ∈ w.positions ↔ w.contains p = true := by
  have cell (i j : Nat) : (w.top + i) * screenCols + (w.left + j) = w.cellAt i j := by
    rw [Window.cellAt_eq, Nat.mul_comm]
  simp only [Window.positions, List.mem_flatMap, List.mem_map, List.mem_range, cell]
  constructor
  · rintro ⟨i, row, j, col, rfl⟩
    exact Window.contains_cellAt fits row col
  · intro inside
    obtain ⟨i, j, row, col, rfl⟩ := Window.exists_cellAt_of_contains inside
    exact ⟨i, row, j, col, rfl⟩

/-- A record that the opening window touches is suspended, its glyphs inside the window saved; any other
stands (R136). -/
theorem Form.Carries.opened (carries : fm.Carries f glyphs) (closed : fm.overlay = none) {w : Window}
    (fits : w.fits = true) (style : Nat) : (fm.opened w style).Carries f glyphs := by
  refine carries.of_records (Form.invariant_lawful.opening style closed fits carries.lawful)
    (Form.invariant_storeLaw.opening style closed fits carries.canonical) fun susp g mem _ _ =>
      ⟨w.touches g, ?_, fun p covered => ?_⟩
  · cases susp with
    | true =>
      rw [Form.records, if_pos rfl, Form.suspended_of_closed closed] at mem
      cases mem
    | false =>
      have active : g ∈ fm.active := mem
      cases touching : w.touches g with
      | true => exact List.mem_filter.mpr ⟨active, touching⟩
      | false => exact List.mem_filter.mpr ⟨active, by simp [touching]⟩
  · have before : fm.cellOf susp p = readCell fm.cells p := by
      cases susp with
      | false => rfl
      | true => rw [Form.cellOf_eq_storedCell, Form.inSaved_true, Form.inWindow_of_closed closed]; rfl
    have screenWf := (Form.storeLaw_iff.mp carries.canonical).1
    have opened : (fm.opened w style).overlay = some
      { window := w
        savedCells := copyCells fm.cells w.positions []
        savedCursor := fm.cursor
        savedHistory := fm.history
        suspended := fm.active.filter w.touches } := rfl
    have cells : (fm.opened w style).cells =
      fillCells { glyph := nullGlyph, style := style } w.positions fm.cells := rfl
    rw [before, Form.cellOf_eq_storedCell, Form.inSaved, Form.inWindow_of_overlay opened]
    cases inside : w.contains p with
    | true =>
      rw [Window.touches_iff.mpr ⟨p, covered, inside⟩]
      simp only [Bool.and_self, Form.storedCell, if_true, Form.savedCell, opened, Option.map_some,
        Option.getD_some]
      rw [readCell_copyCells _ _ _ rfl, if_pos ((Window.mem_positions_iff fits).mpr inside)]
    | false =>
      rw [Bool.and_false, Form.storedCell_false, cells, readCell_fillCells _ _ _ screenWf, if_neg]
      simp [Window.mem_positions_iff fits, inside]

/-- A suspended record comes back with its saved glyphs; an active one outside the window stands (R142). -/
theorem Form.Carries.returned (carries : fm.Carries f glyphs) {o : Overlay}
    (opened : fm.overlay = some o)
    (unmodified : ∀ g ∈ fm.active, o.window.holds g = true → g.modified = false) :
    (fm.returned o).Carries f glyphs := by
  have law := Form.lawful_iff.mp carries.lawful
  have window := law.window o opened
  refine carries.of_records (Form.invariant_lawful.closing opened carries.lawful)
    (Form.invariant_storeLaw.closing opened carries.canonical) fun susp g mem _ marked => ?_
  have outside (active : g ∈ fm.active) : o.window.holds g = false := by
    by_contra held
    rw [unmodified g active (by simpa using held)] at marked
    cases marked
  refine ⟨false, ?_, fun p covered => ?_⟩
  · refine (fm.returned_perm o).mem_iff.mpr ?_
    rw [List.mem_append, List.mem_filter, Bool.not_eq_true']
    cases susp with
    | false => exact .inr ⟨mem, outside mem⟩
    | true => exact .inl (Form.suspended_of_overlay opened ▸ mem)
  · have cells : (fm.returned o).cells = copyCells o.savedCells o.window.positions fm.cells := rfl
    rw [Form.cellOf_false, cells,
      readCell_copyCells _ _ _ (Form.storeLaw_iff.mp carries.canonical).1,
      Form.cellOf_eq_storedCell, Form.inSaved, Form.inWindow_of_overlay opened]
    simp only [Window.mem_positions_iff window.fits]
    cases inside : o.window.contains p with
    | false => simp
    | true =>
      cases susp with
      | true => simp [Form.storedCell, Form.savedCell, opened]
      | false =>
        have held := law.holds_of_contains mem opened covered inside
        rw [outside mem] at held
        cases held

end

/-! ## Every host command -/

section

variable {s t : State} {f : Field} {glyphs : List Byte}

/-- What the last clause of the statement asks of the resulting form. -/
def Form.Shows (fm : Form) (f : Field) (glyphs : List Byte) : Prop :=
  ∃ g held, fm.record f.tag = some (g, held) ∧ g.definition = f.definition ∧
    fm.content held g = glyphs

theorem Form.Carries.shows {fm : Form} (carries : fm.Carries f glyphs) : fm.Shows f glyphs := by
  obtain ⟨g, susp, held, defined, _, content⟩ := carries.held
  exact ⟨g, susp, held, defined, content⟩

/-- A change of marks shows the same field, modified or not. -/
theorem Form.Carries.shows_mapRecords {fm : Form} (carries : fm.Carries f glyphs)
    {g : Field → Field} (only : Field.MarksOnly g) : (fm.mapRecords g).Shows f glyphs := by
  obtain ⟨h, susp, held, defined, _, content⟩ := carries.held
  have keeps := only.retains.toKeepsPlace
  refine ⟨g h, susp, ?_, (only h).1.trans defined, ?_⟩
  · rw [Form.mapRecords_record keeps, held, Option.map_some]
  · rw [Form.mapRecords_content, Form.content_of_extent (keeps.start h) (keeps.length h), content]

theorem Form.Carries.define {fm : Form} (carries : fm.Carries f glyphs) (entry : f.kind = .entry)
    {g : Field} (placed : g.placed = true) (fresh : g.modified = false)
    (reachable : fm.reachable g = true) (unsuspended : fm.suspendedTag g.tag = none)
    (unmodified : ∀ h ∈ fm.overlapped g, h.modified = false)
    (room : fm.active.length - (fm.overlapped g).length + fm.suspended.length < poolSize)
    (second : Nat) : (fm.define second g).Carries f glyphs := by
  have entered := carries.entered placed fresh reachable unsuspended unmodified room
  have mem : g ∈ (fm.entered g).records false := mem_insertByStart.mpr (.inl rfl)
  rw [Form.define_eq]
  refine Form.Carries.recomputeNaming ?_ entry _
  split
  next => exact entered.recomputeTally entry _
  next isClock =>
    exact entered.writeContent ⟨g, mem, rfl, rfl, rfl⟩
      (entered.tag_ne mem (by simp [isClock, entry])) _
  all_goals exact entered

/-- That no record in a window is modified withstands exit processing, which raises no modified mark. -/
theorem Form.stable_unmodified (w : Window) :
    Form.Stable fun fm => ∀ g ∈ fm.active, w.holds g = true → g.modified = false where
  write susp n p l law := by rwa [Form.writeGlyphs_active]
  records {_ g} retains law := by
    rw [Form.mapRecords_active]
    intro _ mapped held
    obtain ⟨h, mem, rfl⟩ := List.mem_map.mp mapped
    rw [retains.holds] at held
    by_contra marked
    have := retains.modified h (by simpa using marked)
    rw [law h mem held] at this
    cases this
  visit _ law := law

theorem Form.exitProcess_overlay_none {fm : Form} (closed : fm.overlay = none) :
    fm.exitProcess.overlay = none := by
  have window := fm.exitProcess_window
  rw [Form.window, Form.window, closed] at window
  simpa using window

theorem Form.exitProcess_overlay_some {fm : Form} {o : Overlay} (opened : fm.overlay = some o) :
    ∃ o', fm.exitProcess.overlay = some o' ∧ o'.window = o.window := by
  have window := fm.exitProcess_window
  rw [Form.window, Form.window, opened] at window
  obtain ⟨o', opened', same⟩ := Option.map_eq_some_iff.mp window
  exact ⟨o', opened', same⟩

/-- What R39 excepts: a forced PUT or a DROP of the field's tag, CLEAR FORM, RESTORE with discard, and the
operator's own visit ended by the command. -/
structure Instr.Respects (c : Instr) (s : State) (f : Field) : Prop where
  notClear : c ≠ .clearForm
  notForced : ∀ tag force text, c = .put tag force text → tag.toNat = f.tag → force.getLsbD 0 = false
  notDropped : ∀ tag, c = .drop tag → tag.toNat ≠ f.tag
  notDiscarded : ∀ discard, c = .restore discard → discard.getLsbD 0 = false
  away : c.runsExit = true → s.form.visit = true → s.form.isCurrent f.tag = false

theorem State.Applied.shows {d : Instr} {u : State} (made : s.Applied d u)
    (inStore : s.stream.writePos < cellCount) (entry : f.kind = .entry)
    (respects : Instr.Respects d s f) (carries : s.form.Carries f glyphs) : u.form.Shows f glyphs := by
  have law := Form.lawful_iff.mp carries.lawful
  cases made with
  | writePos | style | tables | rate | tone => exact carries.shows
  | run d cells => exact ((carries.hostRun _ cells).recomputeNaming entry _).shows
  | cleared => exact absurd rfl respects.notClear
  | cursor d p exits fits => exact (carries.moveTo entry (respects.away exits) _ _ p).shows
  | field args g asked reachable unsuspended unmodified room =>
    obtain ⟨placed, fresh⟩ := fieldRecord_sound inStore asked
    exact (carries.define entry placed fresh reachable unsuspended unmodified room _).shows
  | sources tally tags g susp held isTally =>
    obtain ⟨mem, tag⟩ := law.record_iff.mp held
    have other : tally.toNat ≠ f.tag := tag ▸ carries.tag_ne mem (by simp [isTally, entry])
    have keeps : Field.KeepsPlace fun h => { h with sources := some (tags.map (·.toNat)) } :=
      ⟨fun _ => rfl, fun _ => rfl, fun _ => rfl⟩
    exact ((carries.mapOther keeps other).recomputeTally entry _).shows
  | dropped tag =>
    have stays : f.tag ∉ [tag.toNat] := by simpa using (respects.notDropped tag rfl).symm
    exact ((carries.dropTags stays).recomputeNaming entry _).shows
  | put tag force text g susp held due =>
    obtain ⟨_, tag'⟩ := law.record_iff.mp held
    refine (carries.putText entry (Form.holdsPlace_of_record law held) (fun same => ?_) text).shows
    obtain ⟨h, susp', held', _, marked, _⟩ := carries.held
    rw [← tag', same, held'] at held
    cases held
    obtain unmarked | forced := due
    · rw [marked] at unmarked
      cases unmarked
    · rw [respects.notForced tag force text rfl (tag'.symm.trans same)] at forced
      cases forced
  | marks d g only => exact carries.shows_mapRecords only
  | opened top left height width style w closed fits =>
    have left := carries.exitProcess entry (respects.away rfl)
    exact ((left.opened (Form.exitProcess_overlay_none closed) fits _).recomputeNaming entry _).shows
  | closed discard o opened due =>
    have left := carries.exitProcess entry (respects.away rfl)
    obtain ⟨o', opened', window⟩ := Form.exitProcess_overlay_some opened
    have due' := due.resolve_left (by rw [respects.notDiscarded discard rfl]; exact Bool.false_ne_true)
    change (s.form.closeWindow o).Shows f glyphs
    rw [Form.closeWindow_eq, opened', Option.getD_some]
    refine ((left.returned opened' ?_).recomputeNaming entry _).shows
    rw [window]
    exact (Form.stable_unmodified o.window).exitProcess due'
  | clock d day second ms =>
    refine (State.checkDeadlines_carries ?_ _).shows
    dsimp only
    exact carries.writeClocks entry _ _
  | deadline d i x =>
    refine (State.checkDeadline_carries ?_ _).shows
    exact carries
  | deadlineOff d i x => exact carries.shows_mapRecords (Field.marksOnly_alertOff i)
  | read d chosen => exact (State.buildReadReply_carries carries chosen).shows

theorem State.Event.shows {c : Instr} (made : s.Event c t) (hostSide : c.isOperatorOrReset = false)
    (entry : f.kind = .entry) (carries : s.form.Carries f glyphs) : t.form.Shows f glyphs := by
  cases made with
  | powerUp | resetnAssert | resetnRelease | lineReset => cases hostSide
  | tick => exact (State.tick_carries carries entry).shows
  | goodCharacter c b =>
    obtain ⟨l, eq⟩ := State.goodCharacter_line { s with line := s.line.seenAtMark } b
    rw [eq]
    exact carries.shows
  | startEnded | frameGone | chainAbandoned | frameFault | keyByte | scanCompleted | cellsSent
    | blockTaken | blockContinued =>
    simpa [State.startEnded, State.frameGone] using carries.shows
  | gathered | toneStepEnded | rowStarted | withdrawn | atMark => exact carries.shows

theorem isOperatorOrReset_of_operatorAction {c : Instr} {a : Action}
    (isAction : operatorAction c = some a) : c.isOperatorOrReset = true := by
  cases c <;> cases isAction <;> rfl

theorem State.Change.shows {c : Instr} (made : s.Change c t)
    (inStore : s.stream.writePos < cellCount) (entry : f.kind = .entry)
    (hostSide : c.isOperatorOrReset = false) (respects : Instr.Respects c s f)
    (carries : s.form.Carries f glyphs) : t.form.Shows f glyphs := by
  cases made with
  | notDue | paused => exact carries.shows
  | refused c e =>
    rw [State.refuseDirective_form]
    exact carries.shows
  | applied d u left offset due made =>
    rw [State.reachOffset_form]
    exact made.shows inStore entry respects carries
  | resumed c offset left chosen due =>
    rw [State.reachOffset_form]
    exact (State.buildReadReply_carries carries chosen).shows
  | acted c a rest t isAction =>
    rw [isOperatorOrReset_of_operatorAction isAction] at hostSide
    cases hostSide
  | scanned => cases hostSide
  | event c t made => exact made.shows hostSide entry carries

end

/-- Settles O60: the field is carried through every command that R39 does not except. -/
theorem modifiedProtected : Obligations.ModifiedProtected := by
  intro s t c f susp law canonical held marked entry hostSide notClear notForced notDropped
    notDiscarded away answers
  obtain ⟨lawful, inStore⟩ := State.tableLaw_iff.mp law
  have carries : s.form.Carries f (s.form.content susp f) :=
    ⟨lawful, canonical, f, susp, held, rfl, marked, rfl⟩
  exact (State.Change.of_exec answers).shows inStore entry hostSide
    ⟨notClear, notForced, notDropped, notDiscarded, away⟩ carries

end Sys2Proof.Machine
end

section
/-! PROOFS. The queue of commands, power-up and the starts. -/

namespace Sys2Proof.Machine

open Sys2Proof

/-! ## The queue of commands (log 1, log 2) -/

/-- Settles O1, by the equation of `step` at a queue with a front. -/
theorem stepRunsFront : Obligations.StepRunsFront := by
  intro c rest s queued
  unfold step
  rw [queued]

theorem step_of_idle {s : State} (idle : s.pending = []) : step s = .next s.sendCell := by
  unfold step
  rw [idle]

theorem State.sendCell_of_none {s : State} (between : s.display.column = none) : s.sendCell = s := by
  rw [State.sendCell, between]

theorem State.sendCell_of_some {s : State} {c : Nat} (column : s.display.column = some c) :
    s.sendCell = { s with
      display := s.display.cellSent c (s.renderCell (s.display.row * screenCols + c)) } := by
  rw [State.sendCell, column]

theorem nextRow_eq {r : Nat} (row : r < 28) : nextRow r = if r = 27 then 0 else r + 1 := by
  unfold nextRow screenRows
  split
  next last => rw [last]
  next => exact Nat.mod_eq_of_lt (by omega)

/-- Settles O2: the cell of the column goes out, and column 95 ends the row. -/
theorem emptyQueueSendsNextCell : Obligations.EmptyQueueSendsNextCell := by
  intro s idle
  rw [step_of_idle idle]
  refine ⟨fun between => ?_, fun c column early => ?_, fun column inScreen => ?_⟩
  · rw [State.sendCell_of_none between]
  · have next : c + 1 < screenCols := Nat.succ_lt_succ early
    rw [State.sendCell_of_some column, Display.cellSent, if_pos next]
  · rw [State.sendCell_of_some column, Display.cellSent, if_neg (by decide), nextRow_eq inScreen]

/-! ## Power-up (R178) -/

theorem spaceUnits_eq : spaceUnits = 64000 := rfl

theorem readCell_nil (p : Nat) : readCell [] p = { glyph := 0, style := 0 } := rfl

theorem State.powerUp_values (straps : BitVec 2) (l : List Instr) :
    (State.powerUp straps l).powerUpValues := by
  simp [State.powerUpValues, State.powerUp, formReset, readCell_nil, inputReset, emptyScan,
    streamReset, lineUnitReset, clockReset, toneReset, displayReset, tablesReset, defaultOptions,
    defaultDeadline, spaceUnits_eq]

/-- The sampled rate and the start are no part of the values of power-up (R173, R178). -/
theorem State.powerUpValues_congr {s : State} (values : s.powerUpValues) (baud : Nat) (start : Start) :
    State.powerUpValues { s with line := { s.line with baud := baud }, start := start } := values

theorem strapBaud_eq (straps : BitVec 2) :
    strapBaud straps = [19200, 38400, 57600, 115200].getD straps.toNat 0 := by
  decide +revert

/-- The laws of the state after reset. -/
theorem reset_rangeLaw : State.reset.rangeLaw = true := by
  refine State.rangeLaw_iff.mpr ⟨rfl, tablesReset_sizeLaw, ⟨rfl, by rintro _ ⟨⟩⟩,
    ⟨Nat.zero_le _, Nat.zero_le _⟩, Nat.zero_le _, ?_⟩
  simp [Display.InRange, State.reset, State.powerUp, displayReset]

/-- Settles O59, law by law. -/
theorem lawsHoldAtReset : Obligations.LawsHoldAtReset :=
  ⟨rfl, rfl, rfl, reset_rangeLaw, rfl, rfl, rfl⟩

/-! ## The starts (R178) -/

theorem exec_powerUp (straps : BitVec 2) (s : State) :
    exec (.powerUp straps) s = .next (State.powerUp straps s.pending) := rfl

theorem exec_resetnRelease (straps : BitVec 2) {s : State} (low : s.start.resetLow = true) :
    exec (.resetnRelease straps) s = .next { s with
      form := { s.form with cells := [] }
      line := { s.line with baud := strapBaud straps, spaceLeft := spaceUnits }
      start := { s.start with resetLow := false, running := some .pin } } :=
  congrArg Host.Outcome.next (if_pos low)

theorem exec_startEnd {s : State} {cause : StartCause} (running : s.start.running = some cause) :
    exec .startEnd s = .next (s.startEnded cause) := by
  change execStartEnd s = _
  rw [execStartEnd, running]

/-- Settles O5, event by event. -/
theorem startsAndPinReset : Obligations.StartsAndPinReset := by
  refine ⟨⟨fun straps s => ?power, fun s => ?assert⟩, fun straps s low => ?release,
    fun cause s running => exec_startEnd running⟩
  case power =>
    exact ⟨_, exec_powerUp straps s, State.powerUp_values straps s.pending, rfl, strapBaud_eq straps,
      rfl, rfl⟩
  case assert =>
    exact ⟨_, rfl, State.powerUpValues_congr (State.powerUp_values 0 s.pending) _ _, rfl, rfl, rfl⟩
  case release => rw [exec_resetnRelease straps low, strapBaud_eq, spaceUnits_eq]

/-! ## The line reset (R179) -/

theorem exec_lineReset (s : State) : exec .lineReset s =
    .next (if s.alive && !s.line.atSpace && s.line.spaceLeft = 0 then s.lineResetTaken else s) := rfl

/-- A START notice offered to an emptied line goes out at once (R177, R178). -/
theorem State.startEnded_of_empty {s : State} (cause : StartCause) (low : s.start.resetLow = false)
    (notices : s.line.notices = []) (idle : s.line.sending = none) :
    s.startEnded cause = { s with
      start := { s.start with running := none, cause := cause }
      line := { s.line with
        sending := some { isReply := false, frame := frameOf [0x86, 1, cause.code] }
        notices := [] } } := by
  simp [State.startEnded, State.offer, State.transmit, State.started, low, Line.queueNotice, notices,
    Line.choose, idle, Notice.payload]

/-- Settles O6: the line reset taken when it is due, and otherwise nothing. -/
theorem lineResetEffect : Obligations.LineResetEffect := by
  refine ⟨fun s low mark expired => ?taken, fun s notDue => ?notDue, fun s => rfl⟩
  case taken =>
    rw [exec_lineReset, if_pos (by simp [State.alive, low, mark, expired]), State.lineResetTaken,
      State.startEnded_of_empty .line (by exact low) (by rfl) (by rfl)]
    rfl
  case notDue =>
    rw [exec_lineReset, if_neg]
    obtain low | space | early := notDue
    · simp [State.alive, low]
    · simp [space]
    · simp [Nat.pos_iff_ne_zero.mp early]

/-! ## The tables after power-up (R4, R86, R87, R123) -/

theorem getD_map_range {α : Type} (key : Nat → α) {n c : Nat} (inside : c < n) (other : α) :
    ((List.range n).map key).getD c other = key c := by
  simp [List.getD_eq_getElem?_getD, inside]

theorem defaultKeys_plain {c : Nat} (code : c < 128) : defaultKeys.getD c .none = defaultKeyPlain c := by
  rw [defaultKeys, List.getD_append _ _ _ _ (by simp; omega), List.getD_append _ _ _ _ (by simpa),
    getD_map_range _ code]

theorem defaultKeys_shift {c : Nat} (code : c < 128) :
    defaultKeys.getD (128 + c) .none = defaultKeyShift c := by
  rw [defaultKeys, List.getD_append _ _ _ _ (by simp; omega),
    List.getD_append_right _ _ _ _ (by simp), List.length_map, List.length_range,
    Nat.add_sub_cancel_left, getD_map_range _ code]

theorem defaultKeys_alt {c : Nat} (code : c < 128) :
    defaultKeys.getD (256 + c) .none = defaultKeyAlt c := by
  rw [defaultKeys, List.getD_append_right _ _ _ _ (by simp)]
  simp only [List.length_append, List.length_map, List.length_range]
  rw [show 256 + c - (128 + 128) = c by omega, getD_map_range _ code]

theorem defaultKeyPlain_of_le {c : Nat} (printable : 0x20 ≤ c) :
    defaultKeyPlain c = if c ≤ 0x7B then .char (BitVec.ofNat 8 c) else .none := by
  obtain ⟨n, rfl⟩ := Nat.exists_eq_add_of_le' printable
  simp [defaultKeyPlain]

/-- Settles O4, table by table. -/
theorem resetHasPowerUpValues : Obligations.ResetHasPowerUpValues := by
  refine ⟨⟨State.powerUp_values 0 [], rfl⟩, rfl, fun c code printable => ?plain,
    fun c code => ?shift, fun c code => ?alt, fun g glyph => ?classes, fun n style high => ?styles,
    rfl, fun i index => ?routes⟩
  case plain => exact (defaultKeys_plain code).trans (defaultKeyPlain_of_le printable)
  case shift =>
    exact (defaultKeys_shift code).trans (congrArg _ (defaultKeys_plain code).symm)
  case alt => exact defaultKeys_alt code
  case classes =>
    rw [show tablesReset.classes = (List.range 256).map defaultClass from rfl,
      getD_map_range _ glyph, defaultClass]
    simp [Bool.decide_and, Bool.decide_or, apply_ite (BitVec.ofNat 8), Bool.or_assoc]
    rfl
  case styles =>
    rw [Tables.style, show tablesReset.styles = defaultStyles from rfl, defaultStyles,
      List.getD_append_right _ _ _ _ (by simpa using high)]
    exact List.getD_replicate _ (by simp; omega)
  case routes =>
    exact List.getD_replicate _ index

end Sys2Proof.Machine
end

section
/-! PROOFS. The line: the transmitter's choice of a frame, the receiver character by character, and a whole
frame received. -/

namespace Sys2Proof.Machine

open Sys2Proof

/-! ## The transmitter (R177) -/

section

variable {l : Line}

theorem Line.choose_of_sending {f : Sending} (sending : l.sending = some f) : l.choose = l := by
  rw [Line.choose, sending]

theorem Line.choose_of_notice (idle : l.sending = none) {n : Notice} {rest : List Notice}
    (notices : l.notices = n :: rest) : l.choose =
      { l with sending := some { isReply := false, frame := frameOf n.payload }, notices := rest } := by
  rw [Line.choose, idle, notices]

theorem Line.choose_of_reply (idle : l.sending = none) (notices : l.notices = []) {p : List Byte}
    (reply : l.reply = some p) :
    l.choose = { l with sending := some { isReply := true, frame := frameOf p } } := by
  simp only [Line.choose, idle, notices, reply]

theorem Line.choose_of_nothing (notices : l.notices = []) (reply : l.reply = none) :
    l.choose = l := by
  unfold Line.choose
  cases sending : l.sending with
  | some f => rfl
  | none => simp only [notices, reply]

end

section

variable {s : State}

theorem State.transmit_of_started (started : s.started = true) :
    s.transmit = { s with line := s.line.choose } := by
  rw [State.transmit, if_pos started]

theorem State.transmit_of_not_started (stopped : s.started = false) : s.transmit = s := by
  rw [State.transmit, if_neg (by simp [stopped])]

theorem State.transmit_of_notice (started : s.started = true) (idle : s.line.sending = none)
    {n : Notice} {rest : List Notice} (notices : s.line.notices = n :: rest) :
    s.transmit = { s with line := { s.line with
      sending := some { isReply := false, frame := frameOf n.payload }, notices := rest } } := by
  rw [State.transmit_of_started started, Line.choose_of_notice idle notices]

theorem State.transmit_of_reply (started : s.started = true) (idle : s.line.sending = none)
    (notices : s.line.notices = []) {p : List Byte} (reply : s.line.reply = some p) :
    s.transmit = { s with line := { s.line with
      sending := some { isReply := true, frame := frameOf p } } } := by
  rw [State.transmit_of_started started, Line.choose_of_reply idle notices reply]

theorem State.transmit_of_nothing (notices : s.line.notices = []) (reply : s.line.reply = none) :
    s.transmit = s := by
  cases started : s.started with
  | true => rw [State.transmit_of_started started, Line.choose_of_nothing notices reply]
  | false => exact State.transmit_of_not_started started

theorem State.transmit_of_busy (busy : s.started = false ∨ s.line.sending ≠ none) :
    s.transmit = s := by
  cases started : s.started with
  | false => exact State.transmit_of_not_started started
  | true =>
    obtain ⟨f, sending⟩ := Option.ne_none_iff_exists'.mp (busy.resolve_left (by simp [started]))
    rw [State.transmit_of_started started, Line.choose_of_sending sending]

theorem Line.queueNotice_eq (l : Line) (n : Notice) : l.queueNotice n =
    { l with notices := if l.notices.length < 4 then l.notices ++ [n] else l.notices } := by
  unfold Line.queueNotice
  split_ifs <;> rfl

theorem State.offer_eq (s : State) (n : Notice) : s.offer n = State.transmit { s with
    line := { s.line with
      notices := if s.line.notices.length < 4 then s.line.notices ++ [n] else s.line.notices } } := by
  rw [State.offer, Line.queueNotice_eq]

theorem exec_frameSent {f : Sending} (sending : s.line.sending = some f) :
    exec .frameSent s = .next (s.frameGone f) := by
  change execFrameSent s = _
  rw [execFrameSent, sending]

end

/-- Settles O10, from what an idle transmitter chooses. -/
theorem noticesAndTransmission : Obligations.NoticesAndTransmission := by
  refine ⟨fun s n => ⟨fun m rest started idle queued => ?begun, fun busy => ?waits⟩,
    fun s f started sending => ⟨fun m rest queued => ?notice, fun p none reply => ?reply,
      fun none reply => ?idle⟩⟩
  case begun =>
    rw [State.offer_eq]
    exact State.transmit_of_notice (by exact started) (by exact idle) (by exact queued)
  case waits =>
    rw [State.offer_eq]
    exact State.transmit_of_busy (by exact busy)
  all_goals rw [exec_frameSent sending, State.frameGone]
  case notice =>
    rw [State.transmit_of_notice (by exact started) (by rfl) (by exact queued)]
  case reply =>
    rw [State.transmit_of_reply (by exact started) (by rfl) (by exact none) (by exact reply)]
  case idle =>
    rw [State.transmit_of_nothing (by exact none) (by exact reply), reply]

/-! ## The receiver (R175) -/

/-- Two bytes as one number, most significant first (R180). -/
theorem append_toNat {w : Nat} (high : BitVec w) (low : Byte) :
    (high ++ low).toNat = 256 * high.toNat + low.toNat := by
  rw [BitVec.toNat_append, Nat.shiftLeft_eq, Nat.mul_comm]
  exact (Nat.two_pow_add_eq_or_of_lt low.isLt _).symm

/-- The state with the line at mark and the receiver in a state, its gap timed afresh (R175, R179). -/
def State.listening (s : State) (r : Receiver) : State :=
  { s with line := { s.line with spaceLeft := 64000, receiver := r, gapLeft := 12800 } }

/-- The state with the line at mark and the receiver in HUNT. -/
def State.huntingAtMark (s : State) : State :=
  { s with line := { s.line with spaceLeft := 64000, receiver := .hunt, gapLeft := 0 } }

section

variable {s : State}

theorem exec_lineCharacter_of_deaf (c : LineChar)
    (deaf : s.start.resetLow = true ∨ s.line.atSpace = true) : exec (.lineCharacter c) s = .next s := by
  refine congrArg Host.Outcome.next (if_pos ?_)
  simpa [State.alive] using deaf

variable (low : s.start.resetLow = false) (mark : s.line.atSpace = false)

include low mark

theorem exec_lineCharacter_good (b : Byte) : exec (.lineCharacter (.good b)) s =
    .next (State.goodCharacter { s with line := s.line.seenAtMark } b) :=
  congrArg Host.Outcome.next (if_neg (by simp [State.alive, low, mark]))

theorem exec_lineCharacter_broken :
    exec (.lineCharacter .broken) s = .next s.brokenCharacter :=
  congrArg Host.Outcome.next (if_neg (by simp [State.alive, low, mark]))

theorem receive_hunt (hunt : s.line.receiver = .hunt) (b : Byte) :
    exec (.lineCharacter (.good b)) s = .next (if b = 0xC5 then s.listening (.length none)
      else { s with line := { s.line with spaceLeft := 64000 } }) := by
  rw [exec_lineCharacter_good low mark, State.goodCharacter]
  simp only [Line.seenAtMark, hunt]
  rfl

theorem receive_firstLength (state : s.line.receiver = .length none) (b : Byte) :
    exec (.lineCharacter (.good b)) s = .next (s.listening (.length (some b))) := by
  rw [exec_lineCharacter_good low mark, State.goodCharacter]
  simp only [Line.seenAtMark, state]
  rfl

theorem receive_secondLength {high : Byte} (state : s.line.receiver = .length (some high)) (b : Byte) :
    exec (.lineCharacter (.good b)) s = .next
      (if 3 ≤ 256 * high.toNat + b.toNat ∧ 256 * high.toNat + b.toNat ≤ 12288 then
        s.listening (.payload (256 * high.toNat + b.toNat) [])
      else s.huntingAtMark.offer .frame) := by
  rw [exec_lineCharacter_good low mark, State.goodCharacter]
  simp only [Line.seenAtMark, state, append_toNat, payloadShortest, payloadLongest]
  congr 1
  split_ifs
  case pos => omega
  case neg => rfl
  case pos => rfl
  case neg => omega

theorem receive_payload {n : Nat} {bytes : List Byte} (state : s.line.receiver = .payload n bytes)
    (b : Byte) : exec (.lineCharacter (.good b)) s = .next (s.listening
      (if bytes.length + 1 < n then .payload n (bytes ++ [b]) else .crc (bytes ++ [b]) none)) := by
  rw [exec_lineCharacter_good low mark, State.goodCharacter]
  simp only [Line.seenAtMark, state]
  congr 1
  split_ifs <;> rfl

theorem receive_firstCheck {p : List Byte} (state : s.line.receiver = .crc p none) (b : Byte) :
    exec (.lineCharacter (.good b)) s = .next (s.listening (.crc p (some b))) := by
  rw [exec_lineCharacter_good low mark, State.goodCharacter]
  simp only [Line.seenAtMark, state]
  rfl

theorem receive_secondCheck {p : List Byte} {high : Byte}
    (state : s.line.receiver = .crc p (some high)) (b : Byte) :
    exec (.lineCharacter (.good b)) s = .next
      (if (crc16 (bytes2 p.length ++ p)).toNat ≠ 256 * high.toNat + b.toNat then
        s.huntingAtMark.offer .frame
      else if s.line.buffers.length < 2 then
        { s with
          line := { s.line with
            spaceLeft := 64000, receiver := .hunt, gapLeft := 0, buffers := s.line.buffers ++ [p] } }
      else s.huntingAtMark.offer .overrun) := by
  have check : crc16 (bytes2 p.length ++ p) = high ++ b ↔
      (crc16 (bytes2 p.length ++ p)).toNat = 256 * high.toNat + b.toNat := by
    rw [← append_toNat, BitVec.toNat_inj]
  rw [exec_lineCharacter_good low mark, State.goodCharacter]
  simp only [Line.seenAtMark, state, State.judgeFrame, State.storeFrame, check]
  congr 1
  by_cases agrees : (crc16 (bytes2 p.length ++ p)).toNat = 256 * high.toNat + b.toNat
  · rw [if_pos agrees, if_neg (not_not.mpr agrees)]
    rfl
  · rw [if_neg agrees, if_pos agrees]
    rfl

end

/-- Settles O7, state by state. -/
theorem receiverTakesGoodCharacters : Obligations.ReceiverTakesGoodCharacters := by
  intro s b low mark
  exact ⟨fun hunt => receive_hunt low mark hunt b,
    fun state => receive_firstLength low mark state b,
    fun h state => receive_secondLength low mark state b,
    fun n bytes state => receive_payload low mark state b,
    fun p state => receive_firstCheck low mark state b,
    fun p h state => receive_secondCheck low mark state b⟩

theorem State.brokenCharacter_eq (s : State) : s.brokenCharacter =
    if s.line.receiver = .hunt then s else s.frameFault := by
  unfold State.brokenCharacter
  cases s.line.receiver <;> simp

/-- Settles O8: a fault outside HUNT, nothing in HUNT, and nothing when the receiver is deaf. -/
theorem receiverFaults : Obligations.ReceiverFaults := by
  refine ⟨fun s low mark => ?broken, fun s busy expired => ?gap, fun s c => exec_lineCharacter_of_deaf c⟩
  case broken =>
    rw [exec_lineCharacter_broken low mark, State.brokenCharacter_eq]
    rfl
  case gap => exact congrArg Host.Outcome.next (if_pos (by simp [busy, expired]))

/-! ## A whole frame (R174, R175) -/

theorem State.receives_cons {s t : State} {b : Byte}
    (taken : exec (.lineCharacter (.good b)) s = .next t) (rest : List Byte) :
    s.receives (b :: rest) = t.receives rest := by
  rw [State.receives, taken]

theorem State.listening_listening (s : State) (r r' : Receiver) :
    (s.listening r).listening r' = s.listening r' := rfl

/-- The bytes of a payload are gathered one by one. -/
theorem State.receives_payload {s : State} (low : s.start.resetLow = false)
    (mark : s.line.atSpace = false) {n : Nat} (bytes : List Byte) {b : Byte} (p rest : List Byte)
    (length : bytes.length + (p.length + 1) = n) :
    (s.listening (.payload n bytes)).receives (b :: p ++ rest) =
      (s.listening (.crc (bytes ++ b :: p) none)).receives rest := by
  have taken := receive_payload (s := s.listening (.payload n bytes)) low mark rfl b
  induction p generalizing bytes b with
  | nil =>
    rw [List.cons_append, State.receives_cons taken, if_neg]
    · rfl
    · simp at length
      omega
  | cons c p ih =>
    rw [List.cons_append, State.receives_cons taken, if_pos, State.listening_listening, ih]
    · simp
    · simp at length ⊢
      omega
    · exact receive_payload (s := s.listening (.payload n (bytes ++ [b]))) low mark rfl c
    · simp at length
      omega

theorem bytes2_toNat {n : Nat} (small : n < 65536) :
    256 * (BitVec.ofNat 8 (n / 256)).toNat + (BitVec.ofNat 8 n).toNat = n := by
  simp only [BitVec.toNat_ofNat]
  omega

theorem frameOf_eq (p : List Byte) : frameOf p =
    leadByte :: BitVec.ofNat 8 (p.length / 256) :: BitVec.ofNat 8 p.length ::
      (p ++ bytes2 (crc16 (bytes2 p.length ++ p)).toNat) := by
  simp [frameOf, bytes2]

/-- Settles O9: the lead byte, the length, the payload and the check are taken in turn. -/
theorem frameRoundTrip : Obligations.FrameRoundTrip := by
  intro s p low mark hunt room short long
  obtain ⟨b, q, rfl⟩ : ∃ b q, p = b :: q := by
    cases p with
    | nil => simp at short
    | cons b q => exact ⟨b, q, rfl⟩
  generalize payload : b :: q = p at *
  have lead : exec (.lineCharacter (.good leadByte)) s = .next (s.listening (.length none)) := by
    rw [receive_hunt low mark hunt, if_pos (by rfl)]
  have lengthHigh := receive_firstLength (s := s.listening (.length none)) low mark rfl
    (BitVec.ofNat 8 (p.length / 256))
  have lengthLow := receive_secondLength
    (s := s.listening (.length (some (BitVec.ofNat 8 (p.length / 256))))) low mark rfl
    (BitVec.ofNat 8 p.length)
  rw [bytes2_toNat (by omega), if_pos ⟨short, long⟩] at lengthLow
  have gathered := State.receives_payload low mark (n := p.length) [] (b := b) q
    (bytes2 (crc16 (bytes2 p.length ++ p)).toNat) (by rw [← payload]; simp)
  have checkHigh := receive_firstCheck (s := s.listening (.crc p none)) low mark rfl
    (BitVec.ofNat 8 ((crc16 (bytes2 p.length ++ p)).toNat / 256))
  have checkLow := receive_secondCheck
    (s := s.listening (.crc p (some (BitVec.ofNat 8 ((crc16 (bytes2 p.length ++ p)).toNat / 256)))))
    low mark rfl (BitVec.ofNat 8 (crc16 (bytes2 p.length ++ p)).toNat)
  rw [bytes2_toNat (BitVec.isLt _), if_neg (not_not.mpr rfl), if_pos (by exact room)] at checkLow
  rw [List.nil_append, payload] at gathered
  rw [frameOf_eq, State.receives_cons lead, State.receives_cons lengthHigh,
    State.listening_listening, State.receives_cons lengthLow, State.listening_listening, gathered,
    bytes2, State.receives_cons checkHigh, State.listening_listening, State.receives_cons checkLow,
    State.receives]
  simp only [State.listening, hunt]

end Sys2Proof.Machine
end

section
/-! PROOFS. The replies to READ, byte by byte (R152 to R159, R180). -/

namespace Sys2Proof.Machine

open Sys2Proof

/-! ## The content of a field entry (R153) -/

/-- A content without its trailing nulls. -/
def trimNulls (content : List Byte) : List Byte := content.rdropWhile (· = nullGlyph)

theorem trimNulls_append (content : List Byte) :
    ∃ k, content = trimNulls content ++ List.replicate k nullGlyph := by
  refine ⟨(content.rtakeWhile (· = nullGlyph)).length, ?_⟩
  have nulls : content.rtakeWhile (· = nullGlyph) =
      List.replicate (content.rtakeWhile (· = nullGlyph)).length nullGlyph :=
    List.eq_replicate_of_mem fun g mem => by simpa using List.mem_rtakeWhile_imp mem
  rw [← nulls]
  exact (List.rdropWhile_append_rtakeWhile).symm

theorem replyContent_eq (content : List Byte) : replyContent content =
    (trimNulls content).map fun g => if g = nullGlyph then spaceGlyph else g := rfl

theorem length_replyContent (content : List Byte) :
    (replyContent content).length = (trimNulls content).length := by
  rw [replyContent_eq, List.length_map]

theorem length_replyContent_le (content : List Byte) :
    (replyContent content).length ≤ content.length := by
  rw [length_replyContent]
  exact (List.rdropWhile_prefix _ content).length_le

theorem getD_trimNulls {content : List Byte} {i : Nat}
    (inside : i < (replyContent content).length) : (trimNulls content).getD i 0 = content.getD i 0 := by
  rw [length_replyContent] at inside
  obtain ⟨k, split⟩ := trimNulls_append content
  conv_rhs => rw [split]
  exact (List.getD_append _ _ _ _ inside).symm

theorem getD_replyContent {content : List Byte} {i : Nat}
    (inside : i < (replyContent content).length) :
    (replyContent content).getD i 0 = if content.getD i 0 = 0 then 0x20 else content.getD i 0 := by
  rw [← getD_trimNulls inside]
  rw [length_replyContent] at inside
  rw [replyContent_eq, List.getD_eq_getElem _ _ (by simpa using inside),
    List.getD_eq_getElem _ _ inside, List.getElem_map]
  rfl

/-- Past a field entry's content stand nulls alone. -/
theorem getD_of_length_replyContent_le {content : List Byte} {i : Nat}
    (past : (replyContent content).length ≤ i) : content.getD i 0 = 0 := by
  rw [length_replyContent] at past
  obtain ⟨k, split⟩ := trimNulls_append content
  rw [split, List.getD_append_right _ _ _ _ past, List.getD_eq_getElem?_getD, List.getElem?_replicate]
  split_ifs <;> rfl

/-- A field entry's content ends at a glyph that is no null. -/
theorem getD_last_replyContent {content : List Byte} (some : replyContent content ≠ []) :
    content.getD ((replyContent content).length - 1) 0 ≠ 0 := by
  have some' : trimNulls content ≠ [] := fun none => some (by rw [replyContent_eq, none]; rfl)
  have positive : 0 < (replyContent content).length := List.length_pos_iff.mpr some
  have last : ¬decide ((trimNulls content).getLast some' = nullGlyph) = true :=
    List.rdropWhile_last_not _ content some'
  rw [← getD_trimNulls (by omega), length_replyContent]
  rw [List.getLast_eq_getElem] at last
  rw [List.getD_eq_getElem _ _ (by rw [length_replyContent] at positive; omega)]
  exact fun null => last (decide_eq_true null)

/-! ## READ SCREEN (R158) -/

section

variable (a b : Nat → Byte)

theorem length_flatMap_pairs (n : Nat) :
    ((List.range n).flatMap fun p => [a p, b p]).length = 2 * n := by
  induction n with
  | zero => rfl
  | succ n ih =>
    rw [List.range_succ, List.flatMap_append, List.length_append, ih]
    rfl

theorem getD_flatMap_pairs {n p : Nat} (inside : p < n) :
    ((List.range n).flatMap fun p => [a p, b p]).getD (2 * p) 0 = a p ∧
    ((List.range n).flatMap fun p => [a p, b p]).getD (2 * p + 1) 0 = b p := by
  induction n with
  | zero => omega
  | succ n ih =>
    have length := length_flatMap_pairs a b n
    rw [List.range_succ, List.flatMap_append]
    obtain early | rfl : p < n ∨ p = n := by omega
    · rw [List.getD_append _ _ _ _ (by omega), List.getD_append _ _ _ _ (by omega)]
      exact ih early
    · rw [List.getD_append_right _ _ _ _ (by omega), List.getD_append_right _ _ _ _ (by omega), length,
        Nat.sub_self, Nat.add_sub_cancel_left]
      exact ⟨rfl, rfl⟩

end

theorem State.screenBytes_eq (s : State) : s.screenBytes = [0x83, s.stream.lastSeq] ++
    (List.range cellCount).flatMap fun p =>
      [(readCell s.form.cells p).glyph, BitVec.ofNat 8 (readCell s.form.cells p).style] := rfl

theorem State.length_screenBytes (s : State) : s.screenBytes.length = 5378 := by
  rw [State.screenBytes_eq, List.length_append, length_flatMap_pairs]
  rfl

theorem State.getD_screenBytes (s : State) {p : Nat} (inStore : p < 2688) :
    s.screenBytes.getD (2 + 2 * p) 0 = (readCell s.form.cells p).glyph ∧
    s.screenBytes.getD (3 + 2 * p) 0 = BitVec.ofNat 8 (readCell s.form.cells p).style := by
  have pair := getD_flatMap_pairs (fun p => (readCell s.form.cells p).glyph)
    (fun p => BitVec.ofNat 8 (readCell s.form.cells p).style) (n := cellCount) inStore
  rw [State.screenBytes_eq, List.getD_append_right _ _ _ _ (by simp),
    List.getD_append_right _ _ _ _ (by simp; omega)]
  have first : 2 + 2 * p - [0x83, s.stream.lastSeq].length = 2 * p := by
    simp only [List.length_cons, List.length_nil]
    omega
  have second : 3 + 2 * p - [0x83, s.stream.lastSeq].length = 2 * p + 1 := by
    simp only [List.length_cons, List.length_nil]
    omega
  rw [first, second]
  exact pair

/-! ## READ STATUS (R159) -/

theorem Options.code_bits (o : Options) :
    (Options.code o).toNat < 16 ∧ ((Options.code o).toNat % 2 = 1 ↔ o.typeAhead = true) ∧
    ((Options.code o).toNat / 2 % 2 = 1 ↔ o.softFaults = true) ∧
    ((Options.code o).toNat / 4 % 2 = 1 ↔ o.keyClick = true) ∧
    ((Options.code o).toNat / 8 = 1 ↔ o.insertAtEntry = true) := by
  obtain ⟨typeAhead, softFaults, keyClick, insertAtEntry⟩ := o
  decide +revert

theorem DeadlineState.code_le (d : DeadlineState) : DeadlineState.code d ≤ 2 := by
  cases d <;> decide

theorem deadlineBits_code {l : List Deadline} (four : l.length = 4) {i : Nat} (index : i < 4) :
    (BitVec.ofNat 8 (deadlineBits l)).toNat / 4 ^ i % 4 =
      DeadlineState.code (l.getD i defaultDeadline).state := by
  obtain ⟨d0, d1, d2, d3, rfl⟩ : ∃ d0 d1 d2 d3, l = [d0, d1, d2, d3] := by
    match l, four with
    | [d0, d1, d2, d3], _ => exact ⟨d0, d1, d2, d3, rfl⟩
  have le0 := DeadlineState.code_le d0.state
  have le1 := DeadlineState.code_le d1.state
  have le2 := DeadlineState.code_le d2.state
  have le3 := DeadlineState.code_le d3.state
  simp only [deadlineBits, BitVec.toNat_ofNat]
  obtain rfl | rfl | rfl | rfl : i = 0 ∨ i = 1 ∨ i = 2 ∨ i = 3 := by omega
  all_goals
    simp only [List.getD_cons_zero, List.getD_cons_succ]
    omega

theorem Form.overlayBytes_of_closed {fm : Form} (closed : fm.overlay = none) :
    fm.overlayBytes = [0, 0, 0, 0, 0] := by
  rw [Form.overlayBytes, closed]

theorem Form.overlayBytes_of_overlay {fm : Form} {o : Overlay} (opened : fm.overlay = some o) :
    fm.overlayBytes = 1 ::
      [o.window.top, o.window.left, o.window.height, o.window.width].map (BitVec.ofNat 8) := by
  rw [Form.overlayBytes, opened]
  rfl

theorem Form.length_overlayBytes (fm : Form) : fm.overlayBytes.length = 5 := by
  cases opened : fm.overlay with
  | none => rw [Form.overlayBytes_of_closed opened]; rfl
  | some o => rw [Form.overlayBytes_of_overlay opened]; rfl

/-- The bytes of a STATUS around its window. -/
theorem State.statusBytes_eq (s : State) : ∃ w0 w1 w2 w3 w4 : Byte,
    s.form.overlayBytes = [w0, w1, w2, w3, w4] ∧
    s.statusBytes = [0x84, s.input.entry.code, s.input.entry.returnCode, s.tables.options.code,
      BitVec.ofNat 8 s.form.active.length, BitVec.ofNat 8 s.form.suspended.length, w0, w1, w2, w3, w4,
      BitVec.ofNat 8 s.input.typeAhead.length, BitVec.ofNat 8 s.input.scans.length,
      BitVec.ofNat 8 (deadlineBits s.clock.deadlines)] ++
      (bytes2 s.clock.day ++ bytes3 s.clock.second ++ bytes2 s.clock.millisecond ++
        bytes2 s.clock.addend) ++ [s.stream.lastSeq, s.start.cause.code, revisionCode] := by
  obtain ⟨w0, w1, w2, w3, w4, window⟩ : ∃ w0 w1 w2 w3 w4, s.form.overlayBytes = [w0, w1, w2, w3, w4] := by
    match s.form.overlayBytes, s.form.length_overlayBytes with
    | [w0, w1, w2, w3, w4], _ => exact ⟨w0, w1, w2, w3, w4, rfl⟩
  refine ⟨w0, w1, w2, w3, w4, window, ?_⟩
  rw [State.statusBytes, window]
  rfl

/-! ## The reports (R151 to R157) -/

theorem Form.clearCollisions_eq (fm : Form) (l : List Field) : fm.clearCollisions (l.map (·.tag)) =
    fm.mapRecords fun f => if l.any (·.tag == f.tag) then { f with collision := false } else f := by
  have same (f : Field) : (l.map (·.tag)).contains f.tag = l.any (·.tag == f.tag) := by
    rw [Bool.eq_iff_iff]
    simp
  simp only [Form.clearCollisions, same]

theorem Form.fieldEntry_eq (fm : Form) (susp : Bool) (f : Field) : fm.fieldEntry susp f =
    [BitVec.ofNat 8 f.tag,
     BitVec.ofNat 8 ((if f.collision then 1 else 0) +
       (if f.errorMark.isSome || (f.kind = .tally && (f.incomplete || f.saturated)) then 2 else 0) +
       (if susp then 4 else 0)),
     BitVec.ofNat 8 (replyContent (fm.content susp f)).length] ++
    replyContent (fm.content susp f) := rfl

/-- Settles O16, reply by reply. -/
theorem readReplies : Obligations.ReadReplies := by
  refine ⟨fun s => ⟨State.transmit_of_busy, fun started idle =>
    ⟨fun n rest notices => ?notice, fun p none reply => State.transmit_of_reply started idle none reply,
      State.transmit_of_nothing⟩⟩,
    fun s => ⟨?modified, rfl, ?screen, ?status, fun f susp => ?entry⟩⟩
  case notice => exact State.transmit_of_notice started idle notices
  case modified =>
    rw [State.buildReadReply, State.buildReport, Form.clearCollisions_eq]
    rfl
  case screen =>
    exact ⟨s.screenBytes, rfl, s.length_screenBytes, rfl, fun p inStore => s.getD_screenBytes inStore⟩
  case status =>
    obtain ⟨w0, w1, w2, w3, w4, window, eq⟩ := s.statusBytes_eq
    refine ⟨s.statusBytes, rfl, ?_⟩
    rw [eq]
    refine ⟨rfl, rfl, Options.code_bits _, rfl, rfl, fun closed => ?_, fun o opened => ?_, rfl, rfl,
      fun four i index => (deadlineBits_code four index).trans ?_, rfl, rfl⟩
    · exact window.symm.trans (Form.overlayBytes_of_closed closed)
    · exact window.symm.trans (Form.overlayBytes_of_overlay opened)
    · rfl
  case entry =>
    exact ⟨replyContent (s.form.content susp f), s.form.fieldEntry_eq susp f, length_replyContent_le _,
      fun i inside => getD_replyContent inside, fun i past => getD_of_length_replyContent_le past,
      getD_last_replyContent⟩

end Sys2Proof.Machine
end

section
/-! PROOFS. Every well-formed directive is read back from its bytes (R41, R42, R180). -/

namespace Sys2Proof.Machine

open Sys2Proof

/-! ## Quantities of several bytes (R180) -/

theorem half_extract (h : Half) : half (h.extractLsb' 8 8) (h.extractLsb' 0 8) = h := by
  apply BitVec.eq_of_toNat_eq
  have := h.isLt
  simp only [half, append_toNat, BitVec.extractLsb'_toNat, Nat.shiftRight_eq_div_pow]
  omega

theorem triple_extract (t : Triple) :
    triple (t.extractLsb' 16 8) (t.extractLsb' 8 8) (t.extractLsb' 0 8) = t := by
  apply BitVec.eq_of_toNat_eq
  have := t.isLt
  simp only [triple, append_toNat, BitVec.extractLsb'_toNat, Nat.shiftRight_eq_div_pow]
  omega

theorem quad_extract (q : Quad) : quad (q.extractLsb' 24 8) (q.extractLsb' 16 8)
    (q.extractLsb' 8 8) (q.extractLsb' 0 8) = q := by
  apply BitVec.eq_of_toNat_eq
  have := q.isLt
  simp only [quad, append_toNat, BitVec.extractLsb'_toNat, Nat.shiftRight_eq_div_pow]
  omega

/-! ## Counted runs of bytes (R180) -/

theorem splitBytes_append {n : Nat} {l : List Byte} (length : l.length = n) (rest : List Byte) :
    splitBytes n (l ++ rest) = some (l, rest) := by
  subst length
  simp [splitBytes]

theorem countFits_iff {n : Nat} : countFits n = true ↔ n < 256 := by simp [countFits]

theorem count_toNat {n : Nat} (fits : countFits n = true) : (BitVec.ofNat 8 n).toNat = n := by
  rw [countFits_iff] at fits
  rw [BitVec.toNat_ofNat]
  exact Nat.mod_eq_of_lt fits

theorem parseCounted_countedBytes {l : List Byte} (fits : countFits l.length = true)
    (rest : List Byte) : parseCounted (countedBytes l ++ rest) = some (l, rest) := by
  change splitBytes (BitVec.ofNat 8 l.length).toNat (l ++ rest) = some (l, rest)
  exact splitBytes_append (count_toNat fits).symm rest

theorem length_unpair (l : List (Byte × Byte)) : (unpair l).length = 2 * l.length := by
  simp [unpair, Nat.mul_comm]

theorem pairUp_unpair (l : List (Byte × Byte)) : pairUp (unpair l) = l := by
  induction l with
  | nil => rfl
  | cons p rest ih => exact congrArg (p :: ·) ih

/-! ## The directives whose layout is not fixed -/

theorem parseFieldPart_bytes {a : FieldArgs} (agrees : a.partAgrees = true) (rest : List Byte) :
    parseFieldPart a.cls (fieldPartBytes a.part ++ rest) = some (a.part, rest) := by
  unfold FieldArgs.partAgrees at agrees
  unfold parseFieldPart
  cases part : a.part with
  | plain =>
    simp only [part, Bool.and_eq_true, decide_eq_true_iff] at agrees
    rw [if_neg agrees.1, if_neg agrees.2]
    rfl
  | code rule =>
    simp only [part, decide_eq_true_iff] at agrees
    rw [agrees]
    rfl
  | numeric scale signed flag limits step =>
    simp only [part, Bool.and_eq_true, decide_eq_true_iff, beq_iff_eq] at agrees
    obtain ⟨cls, shown⟩ := agrees
    rw [if_pos cls]
    cases limits with
    | none =>
      have plain : flag ≠ 1 := by simpa using shown
      simp only [fieldPartBytes, quadBytes, List.cons_append, List.nil_append, if_neg plain, quad_extract]
    | some pair =>
      have given : flag = 1 := by simpa using shown
      simp [fieldPartBytes, quadBytes, given, quad_extract]

theorem parseField_bytes {a : FieldArgs} (agrees : a.partAgrees = true) (rest : List Byte) :
    parseField (directiveArgs (.field a) ++ rest) = some (.field a, rest) := by
  simp only [directiveArgs, List.cons_append, List.nil_append, parseField,
    parseFieldPart_bytes agrees]

theorem parseDeadline_bytes {index flags tag style : Byte} {day : Option Half} {second : Triple}
    (agrees : day.isSome = flags.getLsbD 0) (rest : List Byte) :
    parseDeadline (directiveArgs (.deadline index flags day second tag style) ++ rest) =
      some (.deadline index flags day second tag style, rest) := by
  cases day with
  | none =>
    have undated : ¬flags.getLsbD 0 = true := by
      simp only [← agrees, Option.isSome_none, Bool.false_eq_true, not_false_iff]
    simp only [directiveArgs, parseDeadline, tripleBytes, List.cons_append, List.nil_append,
      if_neg undated, triple_extract]
  | some d =>
    have dated : flags.getLsbD 0 = true := agrees.symm
    simp only [directiveArgs, parseDeadline, tripleBytes, halfBytes, List.cons_append, List.nil_append,
      if_pos dated, triple_extract, half_extract]

theorem parseTable_bytes {number plane start count : Byte} {entries : List Byte}
    (length : entries.length = count.toNat * entrySize number) (rest : List Byte) :
    parseTable (directiveArgs (.table number plane start count entries) ++ rest) =
      some (.table number plane start count entries, rest) := by
  simp only [directiveArgs, List.cons_append, List.nil_append, parseTable,
    splitBytes_append length]

theorem parseRouteMatch_bytes {index shortest longest : Byte} {lead : List Byte}
    (fits : countFits lead.length = true) (rest : List Byte) :
    parseRouteMatch (directiveArgs (.routeMatch index lead shortest longest) ++ rest) =
      some (.routeMatch index lead shortest longest, rest) := by
  simp only [directiveArgs, countedBytes, List.cons_append, List.append_assoc, List.nil_append,
    parseRouteMatch, splitBytes_append (count_toNat fits).symm]

theorem parseTone_bytes {steps : List (Byte × Byte)} (fits : countFits steps.length = true)
    (rest : List Byte) :
    parseTone (directiveArgs (.tone steps) ++ rest) = some (.tone steps, rest) := by
  have length : (unpair steps).length = 2 * (BitVec.ofNat 8 steps.length).toNat := by
    rw [length_unpair, count_toNat fits]
  simp only [directiveArgs, List.cons_append, parseTone, splitBytes_append length, pairUp_unpair]

/-! ## Every directive -/

theorem parseDirective_bytes {d : Instr} {code : Byte} (wellFormed : d.wellFormed = true)
    (coded : directiveCode d = some code) (rest : List Byte) :
    parseDirective code (directiveArgs d ++ rest) = some (d, rest) := by
  cases d with
  | write glyphs =>
    cases coded
    change (parseCounted (countedBytes glyphs ++ rest)).map _ = _
    rw [parseCounted_countedBytes wellFormed]
    rfl
  | sources tally tags =>
    cases coded
    change (parseCounted (countedBytes tags ++ rest)).map _ = _
    rw [parseCounted_countedBytes wellFormed]
    rfl
  | put tag force glyphs =>
    cases coded
    change (parseCounted (countedBytes glyphs ++ rest)).map _ = _
    rw [parseCounted_countedBytes wellFormed]
    rfl
  | field a =>
    cases coded
    exact parseField_bytes wellFormed rest
  | table number plane start count entries =>
    cases coded
    exact parseTable_bytes (beq_iff_eq.mp wellFormed) rest
  | routeMatch index lead shortest longest =>
    cases coded
    exact parseRouteMatch_bytes wellFormed rest
  | deadline index flags day second tag style =>
    cases coded
    exact parseDeadline_bytes (beq_iff_eq.mp wellFormed) rest
  | tone steps =>
    cases coded
    exact parseTone_bytes wellFormed rest
  | fill glyph count =>
    cases coded
    exact congrArg (fun h => some (Instr.fill glyph h, rest)) (half_extract count)
  | erase count =>
    cases coded
    exact congrArg (fun h => some (Instr.erase h, rest)) (half_extract count)
  | rate addend =>
    cases coded
    exact congrArg (fun h => some (Instr.rate h, rest)) (half_extract addend)
  | clock day second millisecond =>
    cases coded
    have read := congr (congr (congrArg Instr.clock (half_extract day)) (triple_extract second))
      (half_extract millisecond)
    exact congrArg (fun d => some (d, rest)) read
  | _ => cases coded <;> rfl

theorem directiveCodes_contains {d : Instr} {code : Byte} (coded : directiveCode d = some code) :
    directiveCodes.contains code = true := by
  cases d <;> cases coded <;> rfl

/-- Settles O14: what stands at the offset is parsed back. -/
theorem directiveLayoutRoundTrip : Obligations.DirectiveLayoutRoundTrip := by
  intro d code rest s offset wellFormed coded due bytes
  have laid : directiveBytes d = code :: directiveArgs d := by rw [directiveBytes, coded]
  rw [State.fetch, due]
  change fetchBytes (directiveList s.block offset) = _
  rw [bytes, laid, List.cons_append, fetchBytes, if_pos (directiveCodes_contains coded),
    parseDirective_bytes wellFormed coded]

end Sys2Proof.Machine
end

section
/-! PROOFS. The stream: a block begun, the chain byte, refusals, the chain timeout, and READ. -/

namespace Sys2Proof.Machine

open Sys2Proof

/-! ## A directive accepted or refused (R42, R43) -/

section

variable {s t : State} {d : Instr} {body : State → Except DirError State} {left : Nat}

/-- A directive whose step is that of its body completes when the body accepts it. -/
theorem exec_accepted (arm : exec d s = .next (s.directive d body))
    (fetched : s.fetch = .directive d left) (accepted : body s = .ok t) :
    exec d s = .next (t.reachOffset left) := by
  rw [arm, State.directive_ok fetched accepted]

/-- And it is refused with the error of its body. -/
theorem exec_refused {e : DirError} (arm : exec d s = .next (s.directive d body))
    (fetched : s.fetch = .directive d left) (refused : body s = .error e) :
    exec d s = .next (s.refuseDirective e) := by
  rw [arm, State.directive_error fetched refused]

end

/-! ## The return state (R91, R98) -/

theorem Input.applicationBegun_of {i : Input} {back : ReturnState} (entry : i.entry = back.entry) :
    i.applicationBegun = { i with entry := .held back } := by
  unfold Input.applicationBegun
  cases back <;> rw [entry] <;> rfl

theorem Input.chainEnded_of {i : Input} {back : ReturnState} (held : i.entry = .held back)
    (release : Bool) :
    i.chainEnded release = { i with entry := if release then .openEntry else back.entry } := by
  rw [Input.chainEnded, held]

/-! ## Blocks (R41, R44, R45) -/

theorem State.block_of {s : State} {b : List Byte} {rest : List (List Byte)}
    (buffers : s.line.buffers = b :: rest) : s.block = b := by
  rw [State.block, buffers]
  rfl

theorem length_directiveList (b : List Byte) (offset : Nat) :
    (directiveList b offset).length = b.length - offset - 1 := by
  simp [directiveList]

theorem State.beginBlock_of {s : State} {b : List Byte} {rest : List (List Byte)}
    (buffers : s.line.buffers = b :: rest) : s.beginBlock = State.reachOffset
      { s with stream := { s.stream with
          phase := .applying 2 none, chainSeq := b.getD 0 0, lastSeq := b.getD 0 0 } }
      (b.length - 3) := by
  rw [State.beginBlock, State.block_of buffers, length_directiveList, Nat.sub_sub]

theorem exec_blockTaken {s : State} {b : List Byte} {rest : List (List Byte)}
    (started : s.started = true) (idle : s.stream.phase = .idle)
    (buffers : s.line.buffers = b :: rest) : exec .blockTaken s = .next (State.beginBlock
      { s with
        stream := { s.stream with writePos := 0, style := 0 }
        input := s.input.applicationBegun }) := by
  change execBlockTaken s = _
  simp only [execBlockTaken, idle, buffers, if_pos started]

theorem exec_chainContinuation {s : State} {b : List Byte} {rest : List (List Byte)} {left : Nat}
    (chained : s.stream.phase = .chained left) (buffers : s.line.buffers = b :: rest) :
    exec .chainContinuation s = .next s.beginBlock := by
  change execChainContinuation s = _
  simp only [execChainContinuation, chained, buffers]

/-- Settles O11: a block begun, from IDLE and in a chain. -/
theorem blockTaken : Obligations.BlockTaken := by
  refine ⟨fun s b rest back started idle buffers entry => ?_, fun s b rest left chained buffers => ?_⟩
  · rw [exec_blockTaken started idle buffers, Input.applicationBegun_of entry,
      State.beginBlock_of (by exact buffers)]
  · rw [exec_chainContinuation chained buffers, State.beginBlock_of buffers]

/-- The halves of a chain byte are complements when they add to 15 (R44). -/
theorem chainContinues_iff (c : Byte) :
    chainContinues c = true ↔ c.toNat / 16 + c.toNat % 16 = 15 := by
  have high : (c.extractLsb' 4 4).toNat = c.toNat / 16 := by
    have := c.isLt
    rw [BitVec.extractLsb'_toNat, Nat.shiftRight_eq_div_pow]
    omega
  have low : (c.extractLsb' 0 4).toNat = c.toNat % 16 := by
    rw [BitVec.extractLsb'_toNat, Nat.shiftRight_zero]
  rw [chainContinues, decide_eq_true_iff, ← BitVec.toNat_inj, BitVec.toNat_not, high, low]
  omega

/-- Settles O12: the offset moves on, and at the end of the list the chain byte decides. -/
theorem chainByteExamined : Obligations.ChainByteExamined := by
  intro s b rest buffers
  have block := State.block_of buffers
  refine ⟨fun left more => ?_, fun complement => ?_, fun other back held => ?_⟩
  · rw [State.reachOffset, if_neg (Nat.pos_iff_ne_zero.mp more), block]
  all_goals
    obtain ⟨more, _⟩ | ⟨_, continues, eq⟩ | ⟨_, ends, eq⟩ := s.reachOffset_cases 0
    · exact absurd rfl more
  · rw [eq, buffers]
    rfl
  · rw [block, (chainContinues_iff _).mpr complement] at ends
    cases ends
  · rw [block, chainContinues_iff] at continues
    exact absurd continues other
  · rw [eq, State.endChain, Input.chainEnded_of held, block, buffers]
    rfl

/-! ## Chains abandoned (R43, R45) -/

theorem State.refuseDirective_of {s : State} {back : ReturnState} (held : s.input.entry = .held back)
    (e : DirError) : s.refuseDirective e = State.offer
      { s with
        stream := { s.stream with phase := .idle, writePos := 0, style := 0 }
        line := { s.line with buffers := s.line.buffers.tail }
        input := { s.input with entry := back.entry } }
      (.exception s.stream.chainSeq s.offset e) := by
  rw [State.refuseDirective, State.endChain, Input.chainEnded_of held]
  rfl

theorem exec_directiveUnknown {s : State} {code : Byte} (fetched : s.fetch = .unknown code) :
    exec (.directiveUnknown code) s = .next (s.refuseDirective .unknown) :=
  congrArg Host.Outcome.next (if_pos fetched)

theorem directiveBody_of_code {d : Instr} {code : Byte} (coded : directiveCode d = some code) :
    ∃ body, directiveBody d = some body :=
  Option.isSome_iff_exists.mp (by rw [directiveBody_isSome, coded]; rfl)

theorem State.directive_short {s : State} {d : Instr} {code : Byte}
    (fetched : s.fetch = .short code) (coded : directiveCode d = some code)
    (body : State → Except DirError State) : s.directive d body = s.refuseDirective .length := by
  simp only [State.directive, fetched, if_pos coded]

/-- A directive cut short is refused with LENGTH, READ among them (R42, log 17). -/
theorem exec_short {s : State} {d : Instr} {code : Byte} (fetched : s.fetch = .short code)
    (coded : directiveCode d = some code) : exec d s = .next (s.refuseDirective .length) := by
  obtain ⟨body, isDirective⟩ := directiveBody_of_code coded
  by_cases isRead : ∃ selector, d = .read selector
  · obtain ⟨selector, rfl⟩ := isRead
    obtain eq | ⟨chosen, left, fetched', _⟩ := exec_read_cases selector s
    · rw [eq, State.directive_short fetched coded]
    · rw [fetched] at fetched'
      cases fetched'
  · rw [exec_eq_directive isDirective (fun selector same => isRead ⟨selector, same⟩) s,
      State.directive_short fetched coded]

theorem exec_chainTimeout {s : State} (expired : s.stream.phase = .chained 0) :
    exec .chainTimeout s = .next s.abandonChain := by
  change execChainTimeout s = _
  rw [execChainTimeout, expired]

/-- Settles O13, ending by ending. -/
theorem chainAbandoned : Obligations.ChainAbandoned := by
  refine ⟨⟨fun s e back held => State.refuseDirective_of held e,
    fun s code fetched => exec_directiveUnknown fetched,
    fun s d code fetched coded => exec_short fetched coded⟩, fun s back expired held => ?_⟩
  rw [exec_chainTimeout expired, State.abandonChain, Input.chainEnded_of held]
  rfl

/-! ## READ (R60, R61) -/

theorem selectorOf_none {code : Byte} (unknown : code = 0 ∨ 4 < code.toNat) :
    selectorOf code = none := by
  have other : ∀ known : Byte, 0 < known.toNat → known.toNat ≤ 4 → code ≠ known := by
    rintro known pos small rfl
    obtain rfl | large := unknown
    · cases pos
    · exact Nat.not_lt.mpr small large
  unfold selectorOf
  rw [if_neg (other 1 (by decide) (by decide)), if_neg (other 2 (by decide) (by decide)),
    if_neg (other 3 (by decide) (by decide)), if_neg (other 4 (by decide) (by decide))]

theorem selectorOf_known {code : Byte} {chosen : Selector}
    (known : (code, chosen) ∈ [((1 : Byte), Selector.modified), (2, .all), (3, .screen), (4, .status)]) :
    selectorOf code = some chosen := by
  simp only [List.mem_cons, Prod.mk.injEq, List.not_mem_nil, or_false] at known
  obtain ⟨rfl, rfl⟩ | ⟨rfl, rfl⟩ | ⟨rfl, rfl⟩ | ⟨rfl, rfl⟩ := known <;> rfl

section

variable {s : State} {code : Byte} {chosen : Selector} {left : Nat}

/-- A READ that finds its reply buffer FREE, or an unknown selector, runs its body. -/
theorem exec_read_body
    (goesOn : selectorOf code = none ∨ s.line.reply = none) :
    exec (.read code) s = .next (s.directive (.read code) (bodyRead code)) := by
  obtain eq | ⟨chosen, left', fetched', known, busy, _⟩ := exec_read_cases code s
  · exact eq
  · obtain unknown | free := goesOn
    · rw [unknown] at known
      cases known
    · exact absurd free busy

theorem exec_read_built (fetched : s.fetch = .directive (.read code) left)
    (known : selectorOf code = some chosen) (free : s.line.reply = none) :
    exec (.read code) s = .next ((s.buildReadReply chosen).reachOffset left) :=
  exec_accepted (exec_read_body (.inr free)) fetched (by rw [bodyRead, known])

theorem exec_read_refused (fetched : s.fetch = .directive (.read code) left)
    (unknown : selectorOf code = none) :
    exec (.read code) s = .next (s.refuseDirective .range) :=
  exec_refused (exec_read_body (.inl unknown)) fetched (by rw [bodyRead, unknown])

theorem exec_read_paused (fetched : s.fetch = .directive (.read code) left)
    (known : selectorOf code = some chosen) (busy : s.line.reply ≠ none) :
    exec (.read code) s = .next { s with
      stream := { s.stream with phase := .applying s.offset (some chosen) } } := by
  obtain ⟨waiting, reply⟩ := Option.ne_none_iff_exists'.mp busy
  change execRead code s = _
  simp only [execRead, fetched, known, reply, if_pos]

theorem exec_readResume {offset : Nat} (paused : s.stream.phase = .applying offset (some chosen))
    (free : s.line.reply = none) :
    exec .readResume s = .next
      ((s.buildReadReply chosen).reachOffset (directiveList s.block (offset + 2)).length) := by
  change execReadResume s = _
  simp only [execReadResume, paused, free]

end

/-- Settles O15, outcome by outcome. -/
theorem readBuildsOrPauses : Obligations.ReadBuildsOrPauses := by
  refine ⟨fun s code chosen left known fetched => ⟨fun free => ?_, fun busy => ?_⟩,
    fun s code left unknown fetched => ?_, fun s chosen offset paused free => ?_⟩
  · exact exec_read_built fetched (selectorOf_known known) free
  · exact exec_read_paused fetched (selectorOf_known known) busy
  · exact exec_read_refused fetched (selectorOf_none unknown)
  · rw [exec_readResume paused free, length_directiveList]

end Sys2Proof.Machine
end

section
/-! PROOFS. The directives that set a style, an option, a cursor or a tally's list, drop a record, hold a
PUT off, or load a routing entry: each an accepted or a refused body. -/

namespace Sys2Proof.Machine

open Sys2Proof

/-! ## STYLE, CLEAR FORM, OPTIONS, RATE (R48, R53, R59, R164) -/

/-- A bit of a byte by the byte's value (R180). -/
theorem byte_getLsbD (b : Byte) (i : Nat) : b.getLsbD i = decide (b.toNat / 2 ^ i % 2 = 1) :=
  Nat.testBit_eq_decide_div_mod_eq

theorem optionsOf_eq (flags : Byte) : optionsOf flags =
    { typeAhead := flags.toNat % 2 = 1, softFaults := flags.toNat / 2 % 2 = 1
      keyClick := flags.toNat / 4 % 2 = 1, insertAtEntry := flags.toNat / 8 % 2 = 1 } := by
  simp only [optionsOf, byte_getLsbD, pow_zero, Nat.div_one]
  rfl

/-- Settles O18, directive by directive. -/
theorem styleClearFormOptionsRate : Obligations.StyleClearFormOptionsRate := by
  refine ⟨fun s n left fetched => ⟨fun small => ?_, fun large => ?_⟩, fun s left fetched => ?_,
    fun s flags left fetched => ?_, fun s addend left fetched => ?_⟩
  · exact exec_accepted rfl fetched (if_neg (Nat.not_lt.mpr small))
  · exact exec_refused rfl fetched (if_pos large)
  · exact exec_accepted rfl fetched rfl
  · rw [← optionsOf_eq]
    exact exec_accepted rfl fetched rfl
  · exact exec_accepted rfl fetched rfl

/-! ## Tags (R25, R27, R55) -/

theorem tagInRange_of {tag : Byte} (held : tag ≠ 0 ∧ tag.toNat ≤ 250) : tagInRange tag = true := by
  simpa [tagInRange, lastTag] using held

theorem tagInRange_of_not {tag : Byte} (beyond : tag = 0 ∨ 250 < tag.toNat) :
    tagInRange tag = false := by
  rw [← Bool.not_eq_true]
  intro held
  simp only [tagInRange, lastTag, Bool.and_eq_true, decide_eq_true_eq] at held
  exact beyond.elim held.1 (Nat.not_lt.mpr held.2)

/-! ## CURSOR and CURSOR FIELD (R54, R55) -/

section

variable {s : State} {row col tag : Byte}

theorem bodyCursor_of_le (fits : row.toNat ≤ 27 ∧ col.toNat ≤ 95) : bodyCursor row col s =
    if s.form.overlay.isSome && !s.form.inWindow (row.toNat * 96 + col.toNat) then .error .window
    else .ok (s.hostCursor (row.toNat * 96 + col.toNat)) := by
  rw [bodyCursor, positionOf_of_le fits.1 fits.2]

theorem bodyCursor_of_lt (outside : 27 < row.toNat ∨ 95 < col.toNat) :
    bodyCursor row col s = .error .range := by
  rw [bodyCursor, positionOf_of_lt outside]

theorem bodyCursorField_of_not (beyond : tag = 0 ∨ 250 < tag.toNat) :
    bodyCursorField tag s = .error .tag := by
  simp [bodyCursorField, tagInRange_of_not beyond]

theorem bodyCursorField_of_unheld (held : tag ≠ 0 ∧ tag.toNat ≤ 250)
    (unheld : s.form.activeTag tag.toNat = none) : bodyCursorField tag s = .error .noField := by
  simp [bodyCursorField, tagInRange_of held, unheld]

theorem bodyCursorField_of_held (held : tag ≠ 0 ∧ tag.toNat ≤ 250) {f : Field}
    (found : s.form.activeTag tag.toNat = some f) : bodyCursorField tag s =
      if s.form.reachable f then .ok (s.hostCursor f.start) else .error .window := by
  simp [bodyCursorField, tagInRange_of held, found]

end

theorem Form.reachable_eq_all (fm : Form) (f : Field) :
    fm.reachable f = fm.overlay.all fun o => o.window.holds f := by
  unfold Form.reachable
  cases fm.overlay <;> rfl

/-- Settles O20, check by check. -/
theorem hostPlacesCursor : Obligations.HostPlacesCursor := by
  refine ⟨fun s row col left fetched => ⟨fun fits allowed => ?_, fun fits opened outside => ?_,
    fun outside => exec_refused rfl fetched (bodyCursor_of_lt outside)⟩,
    fun s tag left fetched => ⟨fun beyond => exec_refused rfl fetched (bodyCursorField_of_not beyond),
    fun held unheld => exec_refused rfl fetched (bodyCursorField_of_unheld held unheld),
    fun held f found => ?_⟩⟩
  · have inside : ¬(s.form.overlay.isSome && !s.form.inWindow (row.toNat * 96 + col.toNat)) = true := by
      obtain closed | inside := allowed
      · simp [closed]
      · simp [inside]
    exact exec_accepted rfl fetched ((bodyCursor_of_le fits).trans (if_neg inside))
  · have out : (s.form.overlay.isSome && !s.form.inWindow (row.toNat * 96 + col.toNat)) = true := by
      rw [outside, Option.isSome_iff_ne_none.mpr opened]
      rfl
    exact exec_refused rfl fetched ((bodyCursor_of_le fits).trans (if_pos out))
  · rw [← Form.reachable_eq_all]
    have body := bodyCursorField_of_held held found
    split
    case isTrue reached => exact exec_accepted rfl fetched (body.trans (if_pos reached))
    case isFalse beyond => exact exec_refused rfl fetched (body.trans (if_neg beyond))

/-! ## SOURCES (R31) -/

section

variable {s : State} {tally : Byte} {tags : List Byte}

theorem bodySources_of_not (beyond : tally = 0 ∨ 250 < tally.toNat) :
    bodySources tally tags s = .error .tag := by
  simp [bodySources, tagInRange_of_not beyond]

theorem bodySources_of_unheld (held : tally ≠ 0 ∧ tally.toNat ≤ 250)
    (unheld : s.form.record tally.toNat = none) : bodySources tally tags s = .error .noField := by
  simp [bodySources, tagInRange_of held, unheld]

/-- The checks of the record and the list of a SOURCES, in their order. -/
theorem bodySources_of_held (held : tally ≠ 0 ∧ tally.toNat ≤ 250) {f : Field} {susp : Bool}
    (found : s.form.record tally.toNat = some (f, susp)) : bodySources tally tags s =
      if f.kind ≠ .tally then .error .kind
      else if tags = [] ∨ 16 < tags.length then .error .range
      else if !tags.all tagInRange then .error .tag
      else .ok { s with
        form := (s.form.mapTag tally.toNat fun g =>
          { g with sources := some (tags.map (·.toNat)) }).recomputeTally tally.toNat } := by
  rw [bodySources, tagInRange_of held, found]
  rfl

end

/-- Settles O24, refusal by refusal. -/
theorem sourcesGiven : Obligations.SourcesGiven := by
  intro s tally tags left fetched
  refine ⟨fun beyond => exec_refused rfl fetched (bodySources_of_not beyond), fun held =>
    ⟨fun unheld => exec_refused rfl fetched (bodySources_of_unheld held unheld),
      fun f susp found => ?_⟩⟩
  have body := bodySources_of_held (tags := tags) held found
  refine ⟨fun other => ?_, fun isTally badCount => ?_, fun isTally some few badTag => ?_,
    fun isTally some few good => ?_⟩
  · exact exec_refused rfl fetched (body.trans (if_pos other))
  · refine exec_refused rfl fetched (body.trans ?_)
    rw [if_neg (not_not.mpr isTally), if_pos badCount]
  · obtain ⟨t, listed, beyond⟩ := badTag
    have bad : (!tags.all tagInRange) = true := by
      rw [Bool.not_eq_true', List.all_eq_false]
      exact ⟨t, listed, by rw [tagInRange_of_not beyond]; exact Bool.false_ne_true⟩
    refine exec_refused rfl fetched (body.trans ?_)
    rw [if_neg (not_not.mpr isTally), if_neg (not_or.mpr ⟨some, Nat.not_lt.mpr few⟩), if_pos bad]
  · have all : tags.all tagInRange = true :=
      List.all_eq_true.mpr fun t listed => tagInRange_of (good t listed)
    refine exec_accepted rfl fetched (body.trans ?_)
    rw [if_neg (not_not.mpr isTally), if_neg (not_or.mpr ⟨some, Nat.not_lt.mpr few⟩), all]
    rfl

/-! ## DROP (R25, R26) -/

/-- One tag dropped from the table and from the save area, the visit with it (R26). -/
theorem Form.dropTags_singleton (fm : Form) (tag : Nat) : fm.dropTags [tag] =
    { fm with
      active := fm.active.filter fun f => f.tag ≠ tag
      overlay := fm.overlay.map fun o =>
        { o with suspended := o.suspended.filter fun f => f.tag ≠ tag }
      visit := fm.visit && !fm.isCurrent tag } := by
  have one : ∀ f : Field, [tag].contains f.tag = (f.tag == tag) := fun f => by
    rw [List.contains_cons, List.contains_nil, Bool.or_false]
  have other : ∀ f : Field, (!(f.tag == tag)) = decide (f.tag ≠ tag) := fun f => by
    rw [decide_not]
    rfl
  simp only [Form.dropTags, Form.isCurrent, one, other]

section

variable {s : State} {tag : Byte}

theorem bodyDrop_of_not (beyond : tag = 0 ∨ 250 < tag.toNat) : bodyDrop tag s = .error .tag := by
  simp [bodyDrop, tagInRange_of_not beyond]

theorem bodyDrop_of_unheld (held : tag ≠ 0 ∧ tag.toNat ≤ 250)
    (unheld : s.form.record tag.toNat = none) : bodyDrop tag s = .error .noField := by
  simp [bodyDrop, tagInRange_of held, unheld]

theorem bodyDrop_of_held (held : tag ≠ 0 ∧ tag.toNat ≤ 250)
    (found : s.form.record tag.toNat ≠ none) : bodyDrop tag s =
      .ok { s with form := (s.form.dropTags [tag.toNat]).recomputeNaming [tag.toNat] } := by
  obtain ⟨record, found⟩ := Option.ne_none_iff_exists'.mp found
  simp [bodyDrop, tagInRange_of held, found]

end

/-- Settles O26. -/
theorem dropFrees : Obligations.DropFrees := by
  intro s tag left fetched
  refine ⟨fun beyond => exec_refused rfl fetched (bodyDrop_of_not beyond),
    fun held unheld => exec_refused rfl fetched (bodyDrop_of_unheld held unheld),
    fun held found => ?_⟩
  dsimp only
  rw [← Form.dropTags_singleton]
  exact exec_accepted rfl fetched (bodyDrop_of_held held found)

/-! ## A PUT held off or refused (R27) -/

section

variable {s : State} {tag force : Byte} {glyphs : List Byte}

theorem bodyPut_of_not (beyond : tag = 0 ∨ 250 < tag.toNat) :
    bodyPut tag force glyphs s = .error .tag := by
  simp [bodyPut, tagInRange_of_not beyond]

theorem bodyPut_of_unheld (held : tag ≠ 0 ∧ tag.toNat ≤ 250)
    (unheld : s.form.record tag.toNat = none) : bodyPut tag force glyphs s = .error .noField := by
  simp [bodyPut, tagInRange_of held, unheld]

/-- What a PUT does with the record of its tag: refused by its kind, held off, or its text put. -/
theorem bodyPut_of_held (held : tag ≠ 0 ∧ tag.toNat ≤ 250) {f : Field} {susp : Bool}
    (found : s.form.record tag.toNat = some (f, susp)) : bodyPut tag force glyphs s =
      if f.kind = .tally ∨ f.kind = .clock then .error .kind
      else if f.modified && !force.getLsbD 0 then
        .ok { s with form := s.form.mapTag f.tag fun g => { g with collision := true } }
      else .ok { s with form := s.form.putText susp f glyphs } := by
  rw [bodyPut, tagInRange_of held, found]
  rfl

end

/-- Settles O29. -/
theorem putHeldOffOrRefused : Obligations.PutHeldOffOrRefused := by
  intro s tag force glyphs left fetched
  refine ⟨fun beyond => exec_refused rfl fetched (bodyPut_of_not beyond), fun held =>
    ⟨fun unheld => exec_refused rfl fetched (bodyPut_of_unheld held unheld), fun f susp found => ?_⟩⟩
  have body := bodyPut_of_held (force := force) (glyphs := glyphs) held found
  refine ⟨fun noText => exec_refused rfl fetched (body.trans (if_pos noText)),
    fun notTally notClock modified unforced => exec_accepted rfl fetched (body.trans ?_)⟩
  rw [if_neg (not_or.mpr ⟨notTally, notClock⟩), modified, unforced]
  rfl

/-! ## ROUTE MATCH and ROUTE ACTION (R124, R125) -/

theorem byte_eq_zero_iff (b : Byte) : b = 0 ↔ b.toNat = 0 := BitVec.toNat_inj.symm

theorem bodyRouteMatch_of_ok {s : State} {index shortest longest : Byte} {lead : List Byte}
    (ok : index.toNat ≤ 15 ∧ lead.length ≤ 6 ∧ 1 ≤ shortest.toNat ∧ longest.toNat ≤ 48 ∧
      shortest.toNat ≤ longest.toNat) :
    bodyRouteMatch index lead shortest longest s = .ok
      { s with
        tables := { s.tables with
          routes := s.tables.routes.set index.toNat
            { s.tables.route index.toNat with
              staged := some { lead := lead, shortest := shortest.toNat,
                               longest := longest.toNat } } } } := by
  obtain ⟨within, short, some, bounded, ordered⟩ := ok
  have lengths : ¬(shortest = 0 ∨ scanLongest < longest.toNat ∨ longest.toNat < shortest.toNat) := by
    rw [byte_eq_zero_iff, scanLongest]
    omega
  rw [bodyRouteMatch, if_neg (Nat.not_lt.mpr within), if_neg (Nat.not_lt.mpr short), if_neg lengths]
  rfl

theorem bodyRouteMatch_of_not {s : State} {index shortest longest : Byte} {lead : List Byte}
    (bad : ¬(index.toNat ≤ 15 ∧ lead.length ≤ 6 ∧ 1 ≤ shortest.toNat ∧ longest.toNat ≤ 48 ∧
      shortest.toNat ≤ longest.toNat)) :
    bodyRouteMatch index lead shortest longest s = .error .range := by
  unfold bodyRouteMatch
  split_ifs with beyond long lengths
  case neg =>
    rw [byte_eq_zero_iff, scanLongest] at lengths
    omega
  all_goals rfl

section

variable {s : State} {index target strip keep flags key : Byte}

theorem keepModeOf_of_le (known : keep.toNat ≤ 1) :
    keepModeOf keep = some (if keep = 0 then .head else .tail) := by
  unfold keepModeOf
  split
  case isTrue => rfl
  case isFalse other =>
    have one : keep = 1 := BitVec.toNat_inj.mp (by
      rw [byte_eq_zero_iff] at other
      change keep.toNat = 1
      omega)
    rw [if_pos one]

theorem keepModeOf_of_lt (unknown : 1 < keep.toNat) : keepModeOf keep = none := by
  unfold keepModeOf
  rw [if_neg, if_neg]
  · rintro rfl
    cases unknown
    contradiction
  · rintro rfl
    cases unknown

/-- The checks of a ROUTE ACTION after its index and its target (R125). -/
theorem bodyRouteAction_of_le (within : index.toNat ≤ 15) (held : target.toNat ≤ 250) :
    let first := (s.tables.route index.toNat).staged.getD (s.tables.route index.toNat).first
    bodyRouteAction index target strip keep flags key s =
      if first.lead.length < strip.toNat ∨ 1 < keep.toNat ∨ 24 < key.toNat then .error .range
      else .ok
        { s with
          tables := s.tables.setRoute index.toNat
            { first := first
              second :=
                { target := target.toNat, strip := strip.toNat
                  keep := if keep = 0 then .head else .tail
                  advance := flags.getLsbD 0, key := key, enable := flags.getLsbD 1 }
              staged := none } } := by
  intro first
  rw [bodyRouteAction, if_neg (Nat.not_lt.mpr within), if_neg (Nat.not_lt.mpr (by exact held))]
  by_cases long : first.lead.length < strip.toNat
  case pos => rw [if_pos long, if_pos (.inl long)]
  by_cases unknown : 1 < keep.toNat
  case pos => rw [if_neg long, keepModeOf_of_lt unknown, if_pos (.inr (.inl unknown))]
  by_cases noKey : 24 < key.toNat
  all_goals
    rw [if_neg long, keepModeOf_of_le (Nat.not_lt.mp unknown)]
    simp [long, unknown, noKey, first]

end

/-- Settles O33, half by half. -/
theorem routingLoads : Obligations.RoutingLoads := by
  refine ⟨fun s index lead shortest longest left fetched =>
    ⟨fun ok => exec_accepted rfl fetched (bodyRouteMatch_of_ok ok),
      fun bad => exec_refused rfl fetched (bodyRouteMatch_of_not bad)⟩,
    fun s index target strip keep flags key left fetched =>
    ⟨fun beyond => exec_refused rfl fetched (if_pos beyond),
      fun within unheld => exec_refused rfl fetched ((if_neg (Nat.not_lt.mpr within)).trans
        (if_pos unheld)), fun within held bad => exec_refused rfl fetched ?_,
      fun within held stripped known isKey => exec_accepted rfl fetched ?_⟩⟩
  · exact (bodyRouteAction_of_le within held).trans (if_pos bad)
  · refine (bodyRouteAction_of_le within held).trans (if_neg ?_)
    exact not_or.mpr ⟨Nat.not_lt.mpr stripped, not_or.mpr ⟨Nat.not_lt.mpr known, Nat.not_lt.mpr isKey⟩⟩

end Sys2Proof.Machine
end

section
/-! PROOFS. TABLE: what a run of entries leaves of a table, and the directives that are refused for a
count, a table or a window. -/

namespace Sys2Proof.Machine

open Sys2Proof

/-! ## Entries that are all accepted (R56) -/

theorem allSome_map_some {α : Type} (l : List α) : allSome (l.map some) = some l := by
  induction l with
  | nil => rfl
  | cons a rest ih => simp [allSome, ih]

theorem allSome_eq_none {α : Type} {l : List (Option α)} (missing : none ∈ l) : allSome l = none := by
  induction l with
  | nil => cases missing
  | cons a rest ih =>
    cases a with
    | none => rfl
    | some a =>
      obtain here | there := List.mem_cons.mp missing
      · cases here
      · rw [allSome, ih there, Option.map_none]

/-! ## A run loaded into a plane (R57) -/

section

variable {α : Type} {old new entries : List α} {base size start : Nat} {ignored : Nat → Bool}

theorem tableRunLoaded_nil (old : List α) (base size start : Nat) (ignored : Nat → Bool) :
    TableRunLoaded old old [] base size start ignored :=
  ⟨rfl, fun i inside => absurd inside (Nat.not_lt_zero i), fun _ _ => rfl⟩

/-- The first entry of a run goes to its place unless that is ignored, and the rest of the run follows at
the place after it, within the plane. -/
theorem tableRunLoaded_cons {e : α} (nonempty : 0 < size) (room : base + size ≤ old.length)
    (rest : TableRunLoaded (if ignored (start % size) then old else old.set (base + start % size) e)
      new entries base size ((start + 1) % size) ignored) :
    TableRunLoaded old new (e :: entries) base size start ignored := by
  obtain ⟨length, here, elsewhere⟩ := rest
  have next (i : Nat) : ((start + 1) % size + i) % size = (start + (i + 1)) % size := by
    rw [Nat.mod_add_mod, Nat.add_assoc, Nat.add_comm 1]
  have place : base + start % size < old.length :=
    Nat.lt_of_lt_of_le (Nat.add_lt_add_left (Nat.mod_lt _ nonempty) _) room
  simp only [next] at here elsewhere
  refine ⟨length.trans (by split <;> simp), fun i inside taken last => ?_, fun n apart => ?_⟩
  · cases i with
    | zero =>
      rw [Nat.add_zero] at taken last ⊢
      rw [elsewhere _ fun k inside' _ same => last (k + 1) (Nat.succ_lt_succ inside') (Nat.succ_pos k)
        (Nat.add_left_cancel same).symm, if_neg (by rw [taken]; exact Bool.false_ne_true),
        List.getElem?_set_self place]
      rfl
    | succ i =>
      exact here i (Nat.lt_of_succ_lt_succ inside) taken fun k inside' later =>
        last (k + 1) (Nat.succ_lt_succ inside') (Nat.succ_lt_succ later)
  · rw [elsewhere n fun i inside => apart (i + 1) (Nat.succ_lt_succ inside)]
    split
    case isTrue => rfl
    case isFalse taken =>
      exact List.getElem?_set_ne (apart 0 (Nat.succ_pos _) (by simpa using taken)).symm

end

theorem loadPlane_loaded {α : Type} {table : List α} {base size : Nat} (nonempty : 0 < size)
    (room : base + size ≤ table.length) (start : Nat) (entries : List α) :
    TableRunLoaded table (loadPlane table base size start entries) entries base size start
      fun _ => false := by
  induction entries generalizing table start with
  | nil => exact tableRunLoaded_nil ..
  | cons e rest ih =>
    exact tableRunLoaded_cons nonempty room (ih (room.trans_eq List.length_set.symm) _)

theorem loadStyles_loaded {styles : List Style} (room : 16 ≤ styles.length) (start : Nat)
    (entries : List Style) :
    TableRunLoaded styles (loadStyles styles start entries) entries 0 16 start fun n => n == 0 := by
  induction entries generalizing styles start with
  | nil => exact tableRunLoaded_nil ..
  | cons e rest ih =>
    refine tableRunLoaded_cons (by decide) (by rw [Nat.zero_add]; exact room) ?_
    rw [loadStyles, Nat.zero_add]
    simp only [beq_iff_eq]
    refine ih ?_ _
    split
    · exact room
    · rw [List.length_set]
      exact room

/-! ## TABLE (R56, R57) -/

section

variable {s : State} {number plane start count : Byte} {entries : List Byte}

/-- A TABLE that names a plane and a start index of its table, has entries and whose entries are accepted
loads them. -/
theorem bodyTable_of {planes size : Nat} {t : Tables} (shape : tableShape number = some (planes, size))
    (inTable : plane.toNat < planes) (inPlane : start.toNat < size) (counted : count ≠ 0)
    (loaded : s.tables.load number plane.toNat start.toNat entries = some t) :
    bodyTable number plane start count entries s = .ok { s with tables := t } := by
  simp only [bodyTable, shape, if_neg (Nat.not_le.mpr inTable), if_neg (Nat.not_le.mpr inPlane),
    if_neg counted, loaded]

/-- And any other is refused with RANGE. -/
theorem bodyTable_of_not (bad : ∀ planes size, tableShape number = some (planes, size) →
      planes ≤ plane.toNat ∨ size ≤ start.toNat ∨ count = 0 ∨
      s.tables.load number plane.toNat start.toNat entries = none) :
    bodyTable number plane start count entries s = .error .range := by
  unfold bodyTable
  split
  case h_1 => rfl
  case h_2 planes size shape =>
    split_ifs with beyond outside empty
    case neg =>
      rw [(bad planes size shape).resolve_left beyond |>.resolve_left outside |>.resolve_left empty]
    all_goals rfl

end

/-- Settles O21, table by table. -/
theorem tableLoads : Obligations.TableLoads := by
  intro s plane start count entries left sizes counted
  obtain ⟨styles, _, keys, classes, _⟩ := (Tables.sizeLaw_iff _).mp sizes
  refine ⟨fun actions inTable inPlane accepted fetched => ⟨_, loadPlane_loaded (by decide) ?_ _ _, ?_⟩,
    fun first fetched => ⟨_, loadPlane_loaded (by decide) ?_ _ _, ?_⟩,
    fun table first inPlane accepted fetched => ⟨_, loadStyles_loaded styles.ge _ _, ?_⟩⟩
  · omega
  · refine exec_accepted rfl fetched (bodyTable_of rfl inTable inPlane counted ?_)
    rw [Tables.load, if_pos rfl, accepted, allSome_map_some]
    rfl
  · exact classes.ge
  · subst first
    exact exec_accepted rfl fetched (bodyTable_of rfl (by decide) start.isLt counted rfl)
  · subst first
    refine exec_accepted rfl fetched (bodyTable_of rfl (by decide) inPlane counted ?_)
    rw [Tables.load, if_neg (by decide), if_neg (by decide), accepted, allSome_map_some]
    rfl

/-! ## Entries that are refused (R5, R56, R180) -/

theorem actionOf_eq_none {code parameter : Byte} (bad : 0x14 < code.toNat ∨
      (code = 0x12 ∧ (parameter = 0 ∨ 24 < parameter.toNat))) : actionOf code parameter = none := by
  obtain beyond | ⟨rfl, badKey⟩ := bad
  · unfold actionOf
    split
    case h_22 => rfl
    all_goals omega
  · rw [byte_eq_zero_iff] at badKey
    exact if_pos badKey

theorem styleOf_eq_none {entry : Byte} (bad : entry.toNat % 4 = 3) : styleOf entry = none := by
  have high : entry.getLsbD 1 = true := by
    rw [byte_getLsbD, decide_eq_true_iff]
    omega
  have low : entry.getLsbD 0 = true := by
    rw [byte_getLsbD, decide_eq_true_iff]
    omega
  rw [styleOf, high, low]

theorem tableShape_some {number : Byte} {planes size : Nat}
    (shape : tableShape number = some (planes, size)) :
    (number = 1 ∧ planes = 3 ∧ size = 128) ∨ (number = 2 ∧ planes = 1 ∧ size = 256) ∨
      (number = 3 ∧ planes = 1 ∧ size = 16) := by
  unfold tableShape at shape
  split_ifs at shape with one two three
  all_goals cases shape
  · exact .inl ⟨one, rfl, rfl⟩
  · exact .inr (.inl ⟨two, rfl, rfl⟩)
  · exact .inr (.inr ⟨three, rfl, rfl⟩)

theorem Tables.load_keys_eq_none {t : Tables} {plane start : Nat} {entries : List Byte}
    (bad : ∃ p ∈ pairUp entries, 0x14 < p.1.toNat ∨ (p.1 = 0x12 ∧ (p.2 = 0 ∨ 24 < p.2.toNat))) :
    t.load 1 plane start entries = none := by
  obtain ⟨p, listed, bad⟩ := bad
  rw [Tables.load, if_pos rfl, allSome_eq_none
    (List.mem_map.mpr ⟨p, listed, actionOf_eq_none bad⟩), Option.map_none]

theorem Tables.load_styles_eq_none {t : Tables} {plane start : Nat} {entries : List Byte}
    (bad : ∃ e ∈ entries, e.toNat % 4 = 3) : t.load 3 plane start entries = none := by
  obtain ⟨e, listed, bad⟩ := bad
  rw [Tables.load, if_neg (by decide), if_neg (by decide), allSome_eq_none
    (List.mem_map.mpr ⟨e, listed, styleOf_eq_none bad⟩), Option.map_none]

/-! ## Counts and windows out of range (R50, R51, R135) -/

theorem cellCountOf_error {count : Half} (bad : count.toNat = 0 ∨ 2688 < count.toNat) :
    cellCountOf count = .error .range :=
  if_pos (bad.imp_left fun zero => BitVec.toNat_inj.mp zero)

theorem Window.fits_iff_not {w : Window} : w.fits = true ↔
    ¬(w.height = 0 ∨ 14 < w.height ∨ w.width = 0 ∨ 60 < w.width ∨ 28 < w.top + w.height ∨
      96 < w.left + w.width) := by
  rw [Window.fits_iff]
  omega

section

variable {s : State} {top left height width style : Byte}

theorem bodyOverlay_of_open (opened : s.form.overlay ≠ none) :
    bodyOverlay top left height width style s = .error .overlayBusy :=
  if_pos (Option.isSome_iff_ne_none.mpr opened)

theorem bodyOverlay_of_closed (closed : s.form.overlay = none) :
    let w : Window := { top := top.toNat, left := left.toNat, height := height.toNat,
                        width := width.toNat }
    bodyOverlay top left height width style s =
      if !w.fits then .error .window
      else if 15 < style.toNat then .error .range
      else .ok { s with form := s.form.openWindow w style.toNat } := by
  intro w
  rw [bodyOverlay, closed]
  rfl

end

/-- A TABLE refused for its table, plane, start index, count or an entry (R56). -/
theorem bodyTable_refused {s : State} {number plane start count : Byte} {entries : List Byte}
    (bad : number = 0 ∨ 3 < number.toNat ∨ (number = 1 ∧ (2 < plane.toNat ∨ 127 < start.toNat)) ∨
      (number = 2 ∧ plane ≠ 0) ∨ (number = 3 ∧ (plane ≠ 0 ∨ 15 < start.toNat)) ∨ count = 0 ∨
      (number = 1 ∧ ∃ p ∈ pairUp entries, 0x14 < p.1.toNat ∨
        (p.1 = 0x12 ∧ (p.2 = 0 ∨ 24 < p.2.toNat))) ∨
      (number = 3 ∧ ∃ e ∈ entries, e.toNat % 4 = 3)) :
    bodyTable number plane start count entries s = .error .range := by
  have someTable {n : Byte} {planes size : Nat} (shape : tableShape n = some (planes, size)) :
      n ≠ 0 ∧ n.toNat ≤ 3 := by
    obtain ⟨rfl, _⟩ | ⟨rfl, _⟩ | ⟨rfl, _⟩ := tableShape_some shape
    all_goals decide
  refine bodyTable_of_not fun planes size shape => ?_
  obtain zero | large | ⟨rfl, beyond⟩ | ⟨rfl, other⟩ | ⟨rfl, beyond⟩ | none | ⟨rfl, entry⟩ |
    ⟨rfl, entry⟩ := bad
  case inr.inr.inr.inr.inr.inl => exact .inr (.inr (.inl none))
  case inl => exact absurd zero (someTable shape).1
  case inr.inl => exact absurd large (Nat.not_lt.mpr (someTable shape).2)
  all_goals cases shape
  · exact beyond.imp id .inl
  · exact .inl (Nat.pos_of_ne_zero (mt (byte_eq_zero_iff plane).mpr other))
  · exact beyond.imp (fun other => Nat.pos_of_ne_zero (mt (byte_eq_zero_iff plane).mpr other)) .inl
  · exact .inr (.inr (.inr (Tables.load_keys_eq_none entry)))
  · exact .inr (.inr (.inr (Tables.load_styles_eq_none entry)))

/-- Settles O31, refusal by refusal. -/
theorem countsTablesWindowsRefused : Obligations.CountsTablesWindowsRefused := by
  refine ⟨fun s left => ⟨fun fetched => exec_refused rfl fetched rfl, fun g n bad fetched =>
      exec_refused rfl fetched ?_, fun n bad fetched => exec_refused rfl fetched ?_⟩,
    fun s number plane start count entries left fetched bad =>
      exec_refused rfl fetched (bodyTable_refused bad),
    fun s top left height width style after fetched =>
      ⟨fun opened => exec_refused rfl fetched (bodyOverlay_of_open opened),
        fun closed unfit => exec_refused rfl fetched ((bodyOverlay_of_closed closed).trans ?_),
        fun closed fit large => exec_refused rfl fetched ((bodyOverlay_of_closed closed).trans ?_)⟩⟩
  · rw [bodyFill, cellCountOf_error bad]
  · rw [bodyErase, cellCountOf_error bad]
  all_goals simp only [byte_eq_zero_iff] at *
  · exact if_pos (by rw [Bool.not_eq_true', ← Bool.not_eq_true, Window.fits_iff_not, not_not]; exact unfit)
  · rw [Window.fits_iff_not.mpr (by exact fit), if_neg (by decide), if_pos large]

end Sys2Proof.Machine
end

section
/-! PROOFS. OVERLAY and RESTORE: the window opened over the form, and the form returned when it closes. -/

namespace Sys2Proof.Machine

open Sys2Proof

theorem Form.exitProcess_storeLaw {fm : Form} (canonical : fm.storeLaw = true) :
    fm.exitProcess.storeLaw = true :=
  Form.invariant_storeLaw.exitProcess canonical

/-! ## OVERLAY (R136, R137) -/

section

variable {fm : Form} {w : Window} {style p : Nat}

theorem Form.opened_cells (canonical : fm.storeLaw = true) (fits : w.fits = true) :
    readCell (fm.opened w style).cells p =
      if w.contains p then { glyph := 0, style := style } else readCell fm.cells p := by
  have cells : (fm.opened w style).cells =
    fillCells { glyph := nullGlyph, style := style } w.positions fm.cells := rfl
  rw [cells, readCell_fillCells _ _ _ (Form.storeLaw_iff.mp canonical).1]
  simp only [Window.mem_positions_iff fits]
  rfl

theorem readCell_savedCells (source : Store) (fits : w.fits = true) :
    readCell (copyCells source w.positions []) p =
      if w.contains p then readCell source p else { glyph := 0, style := 0 } := by
  rw [readCell_copyCells _ _ _ rfl]
  simp only [Window.mem_positions_iff fits]
  rfl

end

/-- Settles O30: the window that is opened over the form as exit processing leaves it. -/
theorem overlayOpens : Obligations.OverlayOpens := by
  intro s top left height width style after lawful canonical fetched closed h1 h14 w1 w60 rows cols
    numbered w out touched
  have fits : w.fits = true := Window.fits_iff.mpr ⟨⟨h1, h14⟩, ⟨w1, w60⟩, rows, cols⟩
  refine ⟨(out.opened w style.toNat).cells, copyCells out.cells w.positions [],
    fun p inside => ?_, fun p outside => ?_, ?_⟩
  · rw [Form.opened_cells (Form.exitProcess_storeLaw canonical) fits, readCell_savedCells _ fits,
      if_pos inside, if_pos inside]
    exact ⟨rfl, rfl⟩
  · have outside : ¬w.contains p = true := by rw [outside]; exact Bool.false_ne_true
    rw [Form.opened_cells (Form.exitProcess_storeLaw canonical) fits, readCell_savedCells _ fits,
      if_neg outside, if_neg outside]
    exact ⟨rfl, rfl⟩
  · have body : bodyOverlay top left height width style s =
        .ok { s with form := s.form.openWindow w style.toNat } := by
      refine (bodyOverlay_of_closed closed).trans ?_
      rw [if_neg (by rw [fits]; decide), if_neg (Nat.not_lt.mpr numbered)]
    rw [exec_accepted rfl fetched body, Form.openWindow_eq, Form.opened, Form.exitProcess_cursor,
      Form.exitProcess_history, Form.exitProcess_insert]
    rfl

/-! ## RESTORE (R141 to R143) -/

section

variable {s : State} {discard : Byte} {o : Overlay}

theorem bodyRestore_of_closed (closed : s.form.overlay = none) :
    bodyRestore discard s = .error .noOverlay := by
  rw [bodyRestore, closed]

theorem bodyRestore_of_open (opened : s.form.overlay = some o) : bodyRestore discard s =
    if !discard.getLsbD 0 && s.form.active.any fun f => o.window.holds f && f.modified then
      .error .modified
    else .ok { s with form := s.form.closeWindow o } := by
  rw [bodyRestore, opened]

end

section

variable {fm : Form} {o : Overlay}

/-- The cells inside the window return from the save area (R142). -/
theorem Form.returned_cells (lawful : fm.Lawful) (canonical : fm.storeLaw = true)
    (opened : fm.overlay = some o) (p : Nat) : readCell (fm.returned o).cells p =
      if o.window.contains p then fm.cellOf true p else readCell fm.cells p := by
  have cells : (fm.returned o).cells = copyCells o.savedCells o.window.positions fm.cells := rfl
  rw [cells, readCell_copyCells _ _ _ (Form.storeLaw_iff.mp canonical).1]
  simp only [Window.mem_positions_iff (lawful.window o opened).fits]
  cases inside : o.window.contains p with
  | false => rfl
  | true => simp [Form.cellOf, opened, inside]

theorem Form.mem_returned_active (opened : fm.overlay = some o) (f : Field) :
    f ∈ (fm.returned o).active ↔
      (f ∈ fm.active ∧ o.window.holds f = false) ∨ f ∈ fm.suspended := by
  rw [(fm.returned_perm o).mem_iff, List.mem_append, List.mem_filter, Bool.not_eq_true',
    Form.suspended_of_overlay opened, or_comm]

end

/-- Exit processing keeps the window and the cursor and history saved for it. -/
theorem Form.exitProcess_overlay {fm : Form} {o : Overlay} (opened : fm.overlay = some o) :
    ∃ o', fm.exitProcess.overlay = some o' ∧ o'.window = o.window ∧
      o'.savedCursor = o.savedCursor ∧ o'.savedHistory = o.savedHistory := by
  have place : fm.exitProcess.savedPlace = some (o.window, o.savedCursor, o.savedHistory) := by
    rw [Form.exitProcess_savedPlace, Form.savedPlace, opened]
    rfl
  obtain ⟨o', opened', same⟩ := Form.savedPlace_eq_some_iff.mp place
  simp only [Prod.mk.injEq] at same
  exact ⟨o', opened', same⟩

/-- Settles O32: the refusals, and the form returned as exit processing leaves it. -/
theorem restoreCloses : Obligations.RestoreCloses := by
  intro s discard left fetched
  refine ⟨fun closed => exec_refused rfl fetched (bodyRestore_of_closed closed), fun o opened =>
    ⟨fun kept unsubmitted => exec_refused rfl fetched ((bodyRestore_of_open opened).trans (if_pos ?_)),
      fun lawful canonical allowed => ?_⟩⟩
  · obtain ⟨f, active, held, modified⟩ := unsubmitted
    rw [kept, Bool.not_false, Bool.true_and, List.any_eq_true]
    exact ⟨f, active, by rw [held, modified]; rfl⟩
  · intro out
    obtain ⟨o', opened', window, cursor, history⟩ := Form.exitProcess_overlay opened
    have lawfulOut : out.Lawful :=
      Form.lawful_iff.mp ((Form.exitProcess_lawful s.form).trans lawful)
    rw [← window, ← cursor, ← history]
    refine ⟨(out.returned o').cells, (out.returned o').active,
      Form.returned_cells lawfulOut (Form.exitProcess_storeLaw canonical) opened',
      Form.mem_returned_active opened', inOrder_iff.mpr (lawfulOut.returned opened').activeOrder, ?_⟩
    have unrefused : ¬(!discard.getLsbD 0 && s.form.active.any fun f =>
        o.window.holds f && f.modified) = true := by
      obtain discarded | submitted := allowed
      · rw [discarded]
        exact Bool.false_ne_true
      · have none : (s.form.active.any fun f => o.window.holds f && f.modified) = false := by
          rw [List.any_eq_false]
          intro f active marked
          obtain ⟨held, modified⟩ := Bool.and_eq_true_iff.mp marked
          rw [submitted f active held] at modified
          cases modified
        rw [none, Bool.and_false]
        exact Bool.false_ne_true
    rw [exec_accepted rfl fetched ((bodyRestore_of_open opened).trans (if_neg unrefused)),
      Form.closeWindow_eq, opened', Option.getD_some, Form.returned, Form.exitProcess_insert,
      Form.suspended_of_overlay opened']

end Sys2Proof.Machine
end

section
/-! PROOFS. FIELD: its argument checks in order, its refusals, and the record it enters. -/

namespace Sys2Proof.Machine

open Sys2Proof

/-! ## The kind and class checks (R22 step 3) -/

/-- The kind, the class, the length and the check rule do not go together (R22 step 3). -/
def classBad (a : FieldArgs) : Prop :=
  a.kind = 0 ∨ 5 < a.kind.toNat ∨ 3 < a.cls.toNat ∨ (a.kind = 4 ∧ a.cls ≠ 2) ∨
  (a.kind = 5 ∧ (a.cls ≠ 0 ∨ (a.length ≠ 5 ∧ a.length ≠ 8))) ∨
  (a.kind ≠ 5 ∧ a.cls = 0) ∨ (∃ rule : Byte, a.part = .code rule ∧ 2 < rule.toNat)

theorem byte_eq_iff {b : Byte} {n : Nat} : b = BitVec.ofNat 8 n ↔ b.toNat = n % 256 := by
  rw [← BitVec.toNat_inj, BitVec.toNat_ofNat]

theorem kindOf_eq_none_iff {b : Byte} : kindOf b = none ↔ b = 0 ∨ 5 < b.toNat := by
  unfold kindOf
  split_ifs with entry fixed live tally clock
  case neg =>
    simp only [BitVec.ofNat_eq_ofNat, byte_eq_iff, Nat.reduceMod] at *
    rw [true_iff]
    omega
  all_goals
    subst b
    decide

theorem checkRuleOf_isSome_iff {rule : Byte} : (checkRuleOf rule).isSome = true ↔ rule.toNat ≤ 2 := by
  unfold checkRuleOf
  split_ifs with none first second
  case neg =>
    simp only [BitVec.ofNat_eq_ofNat, byte_eq_iff, Nat.reduceMod] at *
    simp only [Option.isSome_none, Bool.false_eq_true, false_iff]
    omega
  all_goals
    subst rule
    decide

/-- The class and the length that a kind allows (R22 step 3). -/
def kindFits (length cls : Nat) : Kind → Bool
  | .tally => cls == 2
  | .clock => cls == 0 && (length == 5 || length == 8)
  | .entry | .fixed | .live => cls != 0

/-- The part names a check rule, when it names one at all (R180). -/
def partKnown : FieldPart → Bool
  | .code rule => (checkRuleOf rule).isSome
  | .numeric _ _ _ _ _ | .plain => true

theorem kindClassAgree_eq (kind : Kind) (length cls : Nat) (part : FieldPart) :
    kindClassAgree kind length cls part =
      (decide (cls ≤ 3) && kindFits length cls kind && partKnown part) := by
  cases kind <;> cases part <;> rfl

theorem partKnown_iff (part : FieldPart) :
    partKnown part = true ↔ ¬∃ rule : Byte, part = .code rule ∧ 2 < rule.toNat := by
  cases part with
  | code rule => simp [partKnown, checkRuleOf_isSome_iff]
  | plain | numeric => simp [partKnown]

theorem kindOf_cases {b : Byte} {kind : Kind} (isKind : kindOf b = some kind) :
    (b = 1 ∧ kind = .entry) ∨ (b = 2 ∧ kind = .fixed) ∨ (b = 3 ∧ kind = .live) ∨
      (b = 4 ∧ kind = .tally) ∨ (b = 5 ∧ kind = .clock) := by
  unfold kindOf at isKind
  split_ifs at isKind
  all_goals
    cases isKind
    simp_all

theorem kindFits_iff {a : FieldArgs} {kind : Kind} (isKind : kindOf a.kind = some kind) :
    (decide (a.cls.toNat ≤ 3) && kindFits a.length.toNat a.cls.toNat kind) = true ↔
      ¬(a.kind = 0 ∨ 5 < a.kind.toNat ∨ 3 < a.cls.toNat ∨ (a.kind = 4 ∧ a.cls ≠ 2) ∨
        (a.kind = 5 ∧ (a.cls ≠ 0 ∨ (a.length ≠ 5 ∧ a.length ≠ 8))) ∨ (a.kind ≠ 5 ∧ a.cls = 0)) := by
  obtain ⟨byte, rfl⟩ | ⟨byte, rfl⟩ | ⟨byte, rfl⟩ | ⟨byte, rfl⟩ | ⟨byte, rfl⟩ := kindOf_cases isKind
  all_goals
    simp only [byte, kindFits, ne_eq, BitVec.ofNat_eq_ofNat, byte_eq_iff, Nat.reduceMod,
      BitVec.toNat_ofNat, Nat.reducePow, Bool.and_eq_true, Bool.or_eq_true, beq_iff_eq, bne_iff_ne,
      decide_eq_true_iff, true_and, not_true_eq_false, false_and, or_false]
    omega

theorem kindClassAgree_iff {a : FieldArgs} {kind : Kind} (isKind : kindOf a.kind = some kind) :
    kindClassAgree kind a.length.toNat a.cls.toNat a.part = true ↔ ¬classBad a := by
  rw [kindClassAgree_eq, Bool.and_eq_true, partKnown_iff, kindFits_iff isKind, ← not_or]
  simp only [classBad, or_assoc]

/-! ## A fetched FIELD of class NUMERIC has a numeric part (R180) -/

theorem parseFieldPart_numeric {cls : Byte} {args tail : List Byte} {part : FieldPart}
    (parsed : parseFieldPart cls args = some (part, tail)) (numeric : cls = 2) :
    ∃ scale signed flag limits step, part = .numeric scale signed flag limits step := by
  unfold parseFieldPart at parsed
  rw [if_pos numeric] at parsed
  repeat' split at parsed
  all_goals cases parsed
  all_goals exact ⟨_, _, _, _, _, rfl⟩

/-- What is read, when anything is, satisfies the property. -/
def Yields (P : Instr → Prop) (read : Option (Instr × List Byte)) : Prop :=
  ∀ d rest, read = some (d, rest) → P d

theorem Yields.ite {P : Instr → Prop} {c : Prop} [Decidable c] {a b : Option (Instr × List Byte)}
    (holds : Yields P a) (fails : Yields P b) : Yields P (if c then a else b) := by
  split
  exacts [holds, fails]

/-- A field of class NUMERIC comes with a numeric part. -/
def Instr.fieldsNumeric (d : Instr) : Prop := ∀ a, d = .field a → a.cls = 2 →
  ∃ scale signed flag limits step, a.part = .numeric scale signed flag limits step

theorem parseField_fieldsNumeric (args : List Byte) :
    Yields Instr.fieldsNumeric (parseField args) := by
  rintro _ rest parsed a rfl
  unfold parseField at parsed
  repeat' split at parsed
  all_goals cases parsed
  case h_1.refl part => exact parseFieldPart_numeric part

theorem parseDirective_fieldsNumeric (code : Byte) (args : List Byte) :
    Yields Instr.fieldsNumeric (parseDirective code args) := by
  simp only [parseDirective, parseTable, parseRouteMatch, parseDeadline, parseTone]
  repeat' apply Yields.ite
  case fails.fails.fails.fails.fails.fails.holds => exact parseField_fieldsNumeric args
  all_goals
    repeat' split
    all_goals
      rintro _ rest parsed a rfl
      simp at parsed


theorem State.fetch_fieldsNumeric {s : State} {d : Instr} {left : Nat}
    (fetched : s.fetch = .directive d left) : Instr.fieldsNumeric d := by
  unfold State.fetch at fetched
  split at fetched
  case h_2 => cases fetched
  case h_1 offset phase =>
    unfold fetchBytes at fetched
    repeat' split at fetched
    all_goals cases fetched
    case h_1.refl rest parsed => exact parseDirective_fieldsNumeric _ _ _ _ parsed

/-! ## The numeric part (R22 step 4, R64, R65) -/

section

variable {m : Int} {n : NumPart}

theorem checkLimits_of_bad (bad : n.lower < -m ∨ n.upper < n.lower ∨ m < n.upper ∨
      (n.signed = false ∧ n.lower < 0) ∨ n.step < 1 ∨ m < n.step) :
    checkLimits m n = .error .range := by
  unfold checkLimits
  split_ifs with outside negative step
  case neg =>
    simp only [negative, false_or] at bad
    omega
  all_goals rfl

theorem checkLimits_of_good (good : ¬(n.lower < -m ∨ n.upper < n.lower ∨ m < n.upper ∨
      (n.signed = false ∧ n.lower < 0) ∨ n.step < 1 ∨ m < n.step)) : checkLimits m n = .ok n := by
  simp only [not_or] at good
  obtain ⟨low, ordered, high, negative, step⟩ := good
  rw [checkLimits, if_neg (by omega), if_neg negative, if_neg (by omega)]

end

section

variable {length : Nat} {scale sg flag : Byte} {limits : Option (Quad × Quad)} {step : Quad} {kind : Kind}

/-- The digit capacity of a numeric field by its sign and its scale (R64). -/
def capacityOf (length : Nat) (scale sg : Byte) : Int :=
  (length : Int) - sg.toNat - (if scale = 0 then 0 else 1)

theorem digitCapacity_eq (sign : sg.toNat ≤ 1) :
    digitCapacity length (sg = 1) scale.toNat = capacityOf length scale sg := by
  have signed : (if decide (sg = 1) = true then (1 : Int) else 0) = sg.toNat := by
    simp only [decide_eq_true_iff, BitVec.ofNat_eq_ofNat, byte_eq_iff, Nat.reduceMod]
    split <;> omega
  have scaled : (if 0 < scale.toNat then (1 : Int) else 0) = if scale = 0 then 0 else 1 := by
    simp only [byte_eq_zero_iff]
    split_ifs <;> omega
  rw [digitCapacity, signed, scaled, capacityOf]

theorem largestMagnitude_eq (sign : sg.toNat ≤ 1) :
    (largestMagnitude length (sg = 1) scale.toNat : Int) =
      10 ^ (capacityOf length scale sg).toNat - 1 := by
  rw [largestMagnitude, digitCapacity_eq sign, Nat.cast_sub (Nat.one_le_pow _ _ (by decide))]
  norm_cast

/-- The form of a numeric part is refused (R22 step 4, R64). -/
def numericFormatBad (kind : Kind) (length : Nat) (scale sg flag : Byte)
    (limits : Option (Quad × Quad)) : Prop :=
  1 < sg.toNat ∨ 1 < flag.toNat ∨ 3 < scale.toNat ∨ capacityOf length scale sg < 1 ∨
  9 < capacityOf length scale sg ∨ capacityOf length scale sg < scale.toNat + 1 ∨
  (limits = none ∧ kind ≠ .tally)

theorem numericPart_of_formatBad (bad : numericFormatBad kind length scale sg flag limits) :
    numericPart kind length scale sg flag limits step = .error .format := by
  unfold numericPart
  dsimp only
  by_cases signs : 1 < sg.toNat ∨ 1 < flag.toNat
  case pos => exact if_pos signs
  by_cases scales : 3 < scale.toNat
  case pos => rw [if_neg signs, if_pos scales]
  obtain ⟨sign, flags⟩ := not_or.mp signs
  rw [if_neg signs, if_neg scales, digitCapacity_eq (Nat.not_lt.mp sign)]
  by_cases capacity : capacityOf length scale sg < 1 ∨ 9 < capacityOf length scale sg ∨
    capacityOf length scale sg < scale.toNat + 1
  case pos => exact if_pos capacity
  simp only [not_or] at capacity
  obtain ⟨low, high, places⟩ := capacity
  obtain ⟨rfl, notTally⟩ : limits = none ∧ kind ≠ .tally := by
    simpa only [numericFormatBad, sign, flags, scales, low, high, places, false_or] using bad
  rw [if_neg (by omega)]
  exact if_neg notTally

/-- The numeric part that is asked for: with the limits given, or with those of a tally (R65). -/
def numericAsked (length : Nat) (scale sg : Byte) (limits : Option (Quad × Quad)) (step : Quad) :
    NumPart :=
  { scale := scale.toNat
    signed := sg = 1
    lower := (limits.map fun l => l.1.toInt).getD
      (if sg = 1 then -(10 ^ (capacityOf length scale sg).toNat - 1) else 0)
    upper := (limits.map fun l => l.2.toInt).getD (10 ^ (capacityOf length scale sg).toNat - 1)
    step := step.toInt }

theorem checkLimits_eq {m : Int} {n : NumPart} (sign : sg.toNat ≤ 1)
    (signed : n.signed = decide (sg = 1)) : checkLimits m n =
      if n.lower < -m ∨ n.upper < n.lower ∨ m < n.upper ∨ (sg = 0 ∧ n.lower < 0) ∨ n.step < 1 ∨
        m < n.step then .error .range else .ok n := by
  have unsigned : sg = 0 ↔ n.signed = false := by
    rw [signed, decide_eq_false_iff_not]
    simp only [BitVec.ofNat_eq_ofNat, byte_eq_iff, Nat.reduceMod]
    omega
  split
  case isTrue bad => exact checkLimits_of_bad (by rwa [unsigned] at bad)
  case isFalse good => exact checkLimits_of_good (by rwa [unsigned] at good)

theorem numericPart_of_format (good : ¬numericFormatBad kind length scale sg flag limits) :
    numericPart kind length scale sg flag limits step =
      checkLimits (10 ^ (capacityOf length scale sg).toNat - 1)
        (numericAsked length scale sg limits step) := by
  simp only [numericFormatBad, not_or] at good
  obtain ⟨sign, flags, scales, low, high, places, given⟩ := good
  unfold numericPart
  dsimp only
  rw [largestMagnitude_eq (Nat.not_lt.mp sign), digitCapacity_eq (Nat.not_lt.mp sign),
    if_neg (by omega), if_neg scales, if_neg (by omega)]
  cases limits with
  | some pair => rfl
  | none =>
    dsimp only
    rw [if_pos (by simpa using given)]
    simp [numericAsked]

end

/-! ## The checks in their order (R22) -/

/-- Arguments whose class is found: the styles and the next tag are checked, and then the record stands as
it was asked for. -/
def fieldPasses (a : FieldArgs) (w : Nat) (cls : FieldClass) : Prop :=
  let styleBad : Prop := 15 < a.normal.toNat ∨ 15 < a.edit.toNat ∨ 15 < a.error.toNat
  (styleBad → fieldRecord a w = .error .range) ∧
  (¬styleBad → 250 < a.next.toNat → fieldRecord a w = .error .tag) ∧
  (¬styleBad → a.next.toNat ≤ 250 → ∃ f, fieldRecord a w = .ok f ∧
    f.tag = a.tag.toNat ∧ f.start = w ∧ f.length = a.length.toNat ∧
    kindOf a.kind = some f.kind ∧ f.cls = cls ∧ f.opts = fieldOptionsOf a.options ∧
    f.normal = a.normal.toNat ∧ f.edit = a.edit.toNat ∧ f.error = a.error.toNat ∧
    f.next = (if a.next = 0 then none else some a.next.toNat) ∧ f.sources = none ∧
    f.definition = f)

section

variable {a : FieldArgs} {w : Nat} (tag : ¬(a.tag = 0 ∨ 250 < a.tag.toNat))
  (extent : ¬(a.length = 0 ∨ 96 < w % 96 + a.length.toNat))

include tag extent

theorem fieldRecord_of_classBad (bad : classBad a) : fieldRecord a w = .error .format := by
  cases isKind : kindOf a.kind with
  | none => exact fieldRecord_of_kind tag extent isKind
  | some kind =>
    refine fieldRecord_of_disagree tag extent isKind (Bool.not_eq_true _ ▸ ?_)
    rw [kindClassAgree_iff isKind]
    exact not_not.mpr bad

variable (good : ¬classBad a) {kind : Kind} (isKind : kindOf a.kind = some kind)

include good isKind

theorem fieldPasses_of_class {cls : FieldClass}
    (isClass : classOf kind a.length.toNat a.cls a.part = .ok cls) : fieldPasses a w cls := by
  have record := fieldRecord_of_class tag extent isKind ((kindClassAgree_iff isKind).mpr good) isClass
  refine ⟨fun bad => ?_, fun styles bad => ?_, fun styles next => ?_⟩
  · rw [record, if_pos bad]
  · rw [record, if_neg styles, if_pos bad]
  · rw [record, if_neg styles, if_neg (Nat.not_lt.mpr next)]
    exact ⟨_, rfl, rfl, rfl, rfl, isKind, rfl, rfl, rfl, rfl, rfl, rfl, rfl, rfl⟩

theorem fieldRecord_of_numericError {scale sg flag : Byte} {limits : Option (Quad × Quad)} {step : Quad}
    (part : a.part = .numeric scale sg flag limits step) {e : DirError}
    (refused : numericPart kind a.length.toNat scale sg flag limits step = .error e) :
    fieldRecord a w = .error e :=
  fieldRecord_of_classError tag extent isKind ((kindClassAgree_iff isKind).mpr good)
    (by rw [part, classOf, refused]; rfl)

end

theorem kindOf_eq_some_of_good {a : FieldArgs} (good : ¬classBad a) :
    ∃ kind, kindOf a.kind = some kind := by
  cases isKind : kindOf a.kind with
  | some kind => exact ⟨kind, rfl⟩
  | none =>
    refine absurd ?_ good
    obtain zero | beyond := kindOf_eq_none_iff.mp isKind
    exacts [.inl zero, .inr (.inl beyond)]

theorem kindOf_ne_tally_iff {b : Byte} {kind : Kind} (isKind : kindOf b = some kind) :
    kind ≠ .tally ↔ b ≠ 4 := by
  obtain ⟨rfl, rfl⟩ | ⟨rfl, rfl⟩ | ⟨rfl, rfl⟩ | ⟨rfl, rfl⟩ | ⟨rfl, rfl⟩ := kindOf_cases isKind
  all_goals decide

/-! ## The refusals of the record (R22 step 7, R23) -/

section

variable {a : FieldArgs} {s : State} {f : Field}

theorem bodyField_of_error {e : DirError} (refused : fieldRecord a s.stream.writePos = .error e) :
    bodyField a s = .error e := by
  rw [bodyField, refused]

theorem bodyField_of_record (asked : fieldRecord a s.stream.writePos = .ok f) : bodyField a s =
    if !s.form.reachable f then .error .window
    else if (s.form.suspendedTag f.tag).isSome then .error .window
    else if (s.form.overlapped f).any (·.modified) then .error .modified
    else if poolSize ≤ s.form.active.length - (s.form.overlapped f).length + s.form.suspended.length then
      .error .tableFull
    else .ok { s with form := s.form.define s.clock.second f } := by
  rw [bodyField, asked]

end

/-- The four endings of the argument checks of a FIELD, and the refusals of its record, in order. -/
theorem fieldChecks : Obligations.FieldChecks := by
  refine ⟨fun a w => ⟨fieldRecord_of_tag, fieldRecord_of_extent, fieldRecord_of_classBad,
    fun tag extent good => ?_⟩, fun s a left fetched => ⟨fun e refused =>
      exec_refused rfl fetched (bodyField_of_error refused), fun f asked => ⟨fun beyond => ?_,
      fun reachable unsuspended unsubmitted => ?_, fun reachable unsuspended clear full => ?_⟩⟩⟩
  · obtain ⟨kind, isKind⟩ := kindOf_eq_some_of_good good
    have passes {cls : FieldClass} (isClass : classOf kind a.length.toNat a.cls a.part = .ok cls) :=
      fieldPasses_of_class tag extent good isKind isClass
    refine ⟨fun plain => passes (by rw [plain]; rfl), fun code => passes (by rw [code]; rfl),
      fun code => passes (by rw [code]; rfl), fun code => passes (by rw [code]; rfl),
      fun scale sg flag limits step part => ?_⟩
    intro d m formatBad lower upper rangeBad
    have sameFormat : formatBad ↔ numericFormatBad kind a.length.toNat scale sg flag limits := by
      rw [numericFormatBad, kindOf_ne_tally_iff isKind]
      rfl
    have limitsChecked (format : ¬formatBad) := (numericPart_of_format
      (step := step) (mt sameFormat.mpr format)).trans
        (checkLimits_eq (Nat.not_lt.mp fun sign => format (.inl sign)) rfl)
    refine ⟨fun format => ?_, fun format range => ?_, fun format range => passes ?_⟩
    · exact fieldRecord_of_numericError tag extent good isKind part
        (numericPart_of_formatBad (sameFormat.mp format))
    · exact fieldRecord_of_numericError tag extent good isKind part
        ((limitsChecked format).trans (if_pos range))
    · rw [part, classOf, (limitsChecked format).trans (if_neg range)]
      rfl
  · refine exec_refused rfl fetched ((bodyField_of_record asked).trans ?_)
    obtain unreachable | suspended := beyond
    · rw [unreachable]
      rfl
    · rw [if_pos suspended, ite_self]
  · refine exec_refused rfl fetched ((bodyField_of_record asked).trans ?_)
    obtain ⟨g, active, inTheWay, modified⟩ := unsubmitted
    have marked : (s.form.overlapped f).any (·.modified) = true :=
      List.any_eq_true.mpr ⟨g, Form.mem_overlapped.mpr ⟨active, inTheWay⟩, modified⟩
    rw [reachable, unsuspended, if_pos marked]
    rfl
  · refine exec_refused rfl fetched ((bodyField_of_record asked).trans ?_)
    rw [reachable, unsuspended, clear]
    exact if_pos full

end Sys2Proof.Machine
end

section
/-! PROOFS. FIELD: the record entered, its first content, and the tallies that follow. -/

namespace Sys2Proof.Machine

open Sys2Proof

section

variable {fm : Form} {f : Field}

/-! ## Changes of active records alone -/

theorem Form.suspendedTag_eq_none_iff {t : Nat} :
    fm.suspendedTag t = none ↔ ∀ g ∈ fm.suspended, g.tag ≠ t := by
  simp [Form.suspendedTag]

/-- A change of a record that is not suspended leaves the overlay. -/
theorem Form.mapTag_of_unsuspended {t : Nat} (unsuspended : fm.suspendedTag t = none)
    (g : Field → Field) : fm.mapTag t g =
      { fm with active := fm.active.map fun f => if f.tag = t then g f else f } := by
  have others := Form.suspendedTag_eq_none_iff.mp unsuspended
  unfold Form.suspended at others
  unfold Form.mapTag Form.mapRecords Form.mapSuspended
  cases opened : fm.overlay with
  | none => rfl
  | some o =>
    rw [opened] at others
    have same : o.suspended.map (fun f => if f.tag = t then g f else f) = o.suspended :=
      (List.map_congr_left fun f mem => if_neg (others f mem)).trans (List.map_id _)
    simp only [Option.map_some, same]

/-- The drop of active records leaves the overlay. -/
theorem Form.Lawful.dropTags_overlay (law : fm.Lawful) {l : List Field} (active : l ⊆ fm.active) :
    (fm.dropTags (l.map (·.tag))).overlay = fm.overlay := by
  have apart (g h : Field) (suspended : g ∈ fm.suspended) (mem : h ∈ l) : h.tag ≠ g.tag := fun same => by
    have first := law.record_iff (susp := false).mpr ⟨active mem, same⟩
    have second := law.record_iff (susp := true).mpr ⟨suspended, rfl⟩
    cases first.symm.trans second
  unfold Form.dropTags
  cases opened : fm.overlay with
  | none => rfl
  | some o =>
    have kept : o.suspended.filter (fun g => !(l.map (·.tag)).contains g.tag) = o.suspended := by
      refine List.filter_eq_self.mpr fun g suspended => ?_
      rw [Bool.not_eq_true', ← Bool.not_eq_true, List.contains_iff_mem, List.mem_map]
      rintro ⟨h, mem, same⟩
      exact apart g h (by rwa [Form.suspended_of_overlay opened]) mem same
    simp only [Option.map_some, kept]

theorem Form.writeContent_false (fm : Form) (f : Field) (l : List Byte) :
    fm.writeContent false f l = { fm with cells := (fm.writeContent false f l).cells } :=
  Form.writeGlyphs_false ..

theorem Form.readCell_writeContent (canonical : fm.storeLaw = true) {l : List Byte}
    (whole : f.length ≤ l.length) (p : Nat) : readCell (fm.writeContent false f l).cells p =
      if f.covers p = true then { glyph := l.getD (p - f.start) 0, style := f.normal }
      else readCell fm.cells p := by
  simpa using Form.writeContent_storedCell canonical false whole false p

/-! ## The record entered (R23) -/

theorem Form.Lawful.overlapped_eq (law : fm.Lawful) (placed : f.placed = true) :
    fm.overlapped f = fm.active.filter fun g => g.tag == f.tag || !g.apart f :=
  List.filter_congr fun g active => by
    rw [Field.sharesCell_eq_not_apart (law.activePlaced g active) placed]

/-- The record in hand is in the way of a new one exactly when the drop takes it (R23). -/
theorem Form.Lawful.inTheWay_iff (law : fm.Lawful) (placed : f.placed = true) {g : Field}
    (active : g ∈ fm.active) : ((fm.overlapped f).map (·.tag)).contains g.tag =
      (g.tag == f.tag || !g.apart f) := by
  have kept := law.mem_dropped (g := g) placed
  rw [Form.dropTags_active, List.mem_filter, and_iff_right active, and_iff_right active,
    Field.apart_comm] at kept
  rw [Bool.eq_iff_iff, ← not_iff_not, Bool.not_eq_true, ← Bool.not_eq_true', kept]
  simp

/-- The drop of the records in the way leaves the save area, and ends the visit of one of them. -/
theorem Form.Lawful.entered_eq (law : fm.Lawful) (placed : f.placed = true) : fm.entered f =
    { fm with
      active := (fm.entered f).active
      visit := fm.visit && !f.covers fm.cursor &&
        !(fm.current.any fun g => g.tag == f.tag || !g.apart f) } := by
  have overlay : (fm.entered f).overlay = fm.overlay :=
    law.dropTags_overlay List.filter_sublist.subset
  have current : fm.current.any (fun g => ((fm.overlapped f).map (·.tag)).contains g.tag) =
      fm.current.any fun g => g.tag == f.tag || !g.apart f := by
    cases here : fm.current with
    | none => rfl
    | some g => exact law.inTheWay_iff placed (List.mem_of_find?_eq_some here)
  rw [← current, Bool.and_right_comm, ← overlay]
  rfl

/-! ## The first content (R24) -/

/-- What a new record shows once its first content stands: a TALLY is incomplete. -/
def Field.started (f g : Field) : Field :=
  if g.tag = f.tag then { g with incomplete := decide (f.kind = .tally) } else g

theorem Field.started_keepsPlace (f : Field) : Field.KeepsPlace f.started where
  tag g := by unfold Field.started; split <;> rfl
  start g := by unfold Field.started; split <;> rfl
  length g := by unfold Field.started; split <;> rfl

theorem Form.Lawful.mem_started (law : fm.Lawful) (placed : f.placed = true) (g : Field) :
    g ∈ (fm.entered f).active.map f.started ↔
      g = { f with incomplete := decide (f.kind = .tally) } ∨
      (g ∈ fm.active ∧ g.tag ≠ f.tag ∧ g.apart f = true) := by
  have active : (fm.entered f).active =
      insertByStart f (fm.dropTags ((fm.overlapped f).map (·.tag))).active := rfl
  have new : f.started f = { f with incomplete := decide (f.kind = .tally) } := if_pos rfl
  have old (h : Field) (other : h.tag ≠ f.tag) : f.started h = h := if_neg other
  simp only [active, List.mem_map, mem_insertByStart, law.mem_dropped placed, Field.apart_comm f]
  constructor
  · rintro ⟨h, rfl | kept, rfl⟩
    · exact .inl new
    · rw [old h kept.2.1]
      exact .inr kept
  · rintro (rfl | kept)
    · exact ⟨f, .inl rfl, new⟩
    · exact ⟨g, .inr kept, old g kept.2.1⟩

theorem length_clockText {length : Nat} (known : length = 5 ∨ length = 8) (second : Nat) :
    (clockText length second).length = length := by
  obtain rfl | rfl := known <;> rfl

/-- What a FIELD asks for begins without marks and sources; a TALLY is numeric, and a CLOCK has room for
its text (R22). -/
structure Field.Fresh (f : Field) : Prop where
  placed : f.placed = true
  clear : f.definition = f
  sources : f.sources = none
  tally : f.kind = .tally → ∃ n, f.cls = .numeric n
  clock : f.kind = .clock → f.length = 5 ∨ f.length = 8

theorem Form.entered_unsuspended (unsuspended : fm.suspendedTag f.tag = none) :
    (fm.entered f).suspendedTag f.tag = none := by
  rw [Form.suspendedTag_eq_none_iff] at unsuspended ⊢
  intro g mem
  have suspended : (fm.entered f).suspended =
      (fm.dropTags ((fm.overlapped f).map (·.tag))).suspended := rfl
  rw [suspended, Form.dropTags_suspended] at mem
  exact unsuspended g (List.mem_of_mem_filter mem)

/-- Other kinds than TALLY begin with the record as it was asked for. -/
theorem Form.Lawful.map_started (law : (fm.entered f).Lawful) (fresh : f.Fresh) (other : f.kind ≠ .tally) :
    (fm.entered f).active.map f.started = (fm.entered f).active := by
  have new : f ∈ (fm.entered f).active := mem_insertByStart.mpr (.inl rfl)
  refine (List.map_congr_left fun g active => ?_).trans (List.map_id _)
  unfold Field.started
  split
  case isFalse => rfl
  case isTrue same =>
    cases List.inj_on_of_nodup_map law.activeTags active new same
    rw [decide_eq_false other]
    exact congrArg (fun h : Field => { f with incomplete := h.incomplete }) fresh.clear

/-- A new TALLY is recomputed: null and incomplete (R24, R80). -/
theorem Form.Lawful.recomputeTally_entered (law : (fm.entered f).Lawful) (fresh : f.Fresh)
    (isTally : f.kind = .tally) (unsuspended : fm.suspendedTag f.tag = none) :
    (fm.entered f).recomputeTally f.tag =
      { (fm.entered f) with
        cells := ((fm.entered f).writeContent false f (List.replicate f.length nullGlyph)).cells
        active := (fm.entered f).active.map f.started } := by
  have new : f ∈ (fm.entered f).active := mem_insertByStart.mpr (.inl rfl)
  obtain ⟨n, numeric⟩ := fresh.tally isTally
  have text : (fm.entered f).tallyText f n = List.replicate f.length nullGlyph := by
    rw [Form.tallyText, fresh.sources]
  have marked (g : Field) : (fm.entered f).tallyMarked f n g =
      { g with incomplete := true, saturated := false } := by
    rw [Form.tallyMarked, fresh.sources]
  rw [Form.recomputeTally_of (law.record_iff (susp := false) |>.mpr ⟨new, rfl⟩) isTally numeric, text,
    Form.writeContent_false, Form.mapTag_of_unsuspended (by exact Form.entered_unsuspended unsuspended)]
  congr 1
  refine List.map_congr_left fun g active => ?_
  unfold Field.started
  split
  case isFalse => rfl
  case isTrue same =>
    cases List.inj_on_of_nodup_map law.activeTags active new same
    rw [marked, decide_eq_true isTally]
    exact congrArg (fun h : Field => { f with incomplete := true, saturated := h.saturated })
      fresh.clear

/-- The first content of the record entered, by its kind (R24). -/
theorem Form.Lawful.define_started (law : (fm.entered f).Lawful) (canonical : (fm.entered f).storeLaw = true)
    (fresh : f.Fresh) (unsuspended : fm.suspendedTag f.tag = none) (second : Nat) :
    ∃ cells : Store,
      (∀ p, readCell cells p =
        if f.covers p = true ∧ f.kind = .tally then { glyph := 0, style := f.normal }
        else if f.covers p = true ∧ f.kind = .clock then
          { glyph := (clockText f.length second).getD (p - f.start) 0, style := f.normal }
        else readCell (fm.entered f).cells p) ∧
      fm.define second f = Form.recomputeNaming
        { (fm.entered f) with cells := cells, active := (fm.entered f).active.map f.started }
        (f.tag :: (fm.overlapped f).map (·.tag)) := by
  rw [Form.define_eq]
  cases kind : f.kind with
  | tally =>
    refine ⟨((fm.entered f).writeContent false f (List.replicate f.length nullGlyph)).cells,
      fun p => ?_, ?_⟩
    · have null : (List.replicate f.length nullGlyph).getD (p - f.start) 0 = 0 := by
        rw [List.getD_eq_getElem?_getD, List.getElem?_replicate]
        split <;> rfl
      rw [Form.readCell_writeContent canonical (by rw [List.length_replicate]), null]
      simp
    · rw [law.recomputeTally_entered fresh kind unsuspended]
  | clock =>
    have whole := length_clockText (fresh.clock kind) second
    refine ⟨((fm.entered f).writeContent false f (clockText f.length second)).cells, fun p => ?_, ?_⟩
    · rw [Form.readCell_writeContent canonical whole.ge]
      simp
    · rw [law.map_started fresh (by rw [kind]; decide)]
      exact congrArg (Form.recomputeNaming · _) (Form.writeContent_false ..)
  | entry | fixed | live =>
    refine ⟨(fm.entered f).cells, fun p => by simp, ?_⟩
    rw [law.map_started fresh (by rw [kind]; decide)]

end

/-! ## FIELD (R22 to R24) -/

theorem byte_of_tally {b : Byte} (isTally : kindOf b = some .tally) : b = 4 :=
  not_not.mp (mt (kindOf_ne_tally_iff isTally).mpr (not_not.mpr rfl))

theorem byte_of_clock {b : Byte} (isClock : kindOf b = some .clock) : b = 5 := by
  simpa using kindOf_cases isClock

theorem cls_of_tally {a : FieldArgs} (good : ¬classBad a) (isTally : a.kind = 4) : a.cls = 2 := by
  simp only [classBad, not_or, not_and, not_not] at good
  obtain ⟨_, _, _, numeric, _⟩ := good
  exact numeric isTally

theorem length_of_clock {a : FieldArgs} (good : ¬classBad a) (isClock : a.kind = 5) :
    a.length.toNat = 5 ∨ a.length.toNat = 8 := by
  simp only [classBad, not_or, not_and, not_not] at good
  obtain ⟨_, _, _, _, clock, _⟩ := good
  by_cases five : a.length = 5
  · exact .inl (congrArg BitVec.toNat five)
  · exact .inr (congrArg BitVec.toNat ((clock isClock).2 five))

theorem fieldRecord_fresh {s : State} {a : FieldArgs} {f : Field} {left : Nat}
    (fetched : s.fetch = .directive (.field a) left) (inStore : s.stream.writePos < cellCount)
    (asked : fieldRecord a s.stream.writePos = .ok f) : f.Fresh := by
  obtain ⟨_, _, kind, cls, isKind, agree, isClass, rfl⟩ := fieldRecord_ok asked
  have good := (kindClassAgree_iff isKind).mp agree
  refine ⟨(fieldRecord_sound inStore asked).1, rfl, rfl, fun isTally => ?_, fun isClock => ?_⟩
  · obtain ⟨scale, sg, flag, limits, step, part⟩ :=
      State.fetch_fieldsNumeric fetched a rfl (cls_of_tally good (byte_of_tally (isKind.trans (congrArg some isTally))))
    rw [part, classOf] at isClass
    cases asked : numericPart kind a.length.toNat scale sg flag limits step with
    | error e =>
      rw [asked] at isClass
      cases isClass
    | ok n =>
      rw [asked] at isClass
      cases isClass
      exact ⟨n, rfl⟩
  · exact length_of_clock good (byte_of_clock (isKind.trans (congrArg some isClock)))

/-- Settles O22: the record is accepted, entered, given its first content, and the tallies follow. -/
theorem fieldDefined : Obligations.FieldDefined := by
  intro s a f left lawful canonical fetched asked reachable unsuspended unmodified room gone
  obtain ⟨lawful, inStore⟩ := State.tableLaw_iff.mp lawful
  have law := Form.lawful_iff.mp lawful
  have fresh := fieldRecord_fresh fetched inStore asked
  have way := law.overlapped_eq fresh.placed
  have entered := law.entered fresh.placed reachable unsuspended room
  have shape := law.entered_eq fresh.placed
  have canonical' : (s.form.entered f).storeLaw = true := by
    rw [shape]
    exact canonical
  obtain ⟨cells, shown, defined⟩ := entered.define_started canonical' fresh unsuspended s.clock.second
  refine ⟨cells, (s.form.entered f).active.map f.started, law.mem_started fresh.placed, ?_, fresh.clear,
    shown, ?_⟩
  · rw [f.started_keepsPlace.inOrder, inOrder_iff]
    exact entered.activeOrder
  · have unmarked : (s.form.overlapped f).any (·.modified) = false := by
      rw [List.any_eq_false]
      intro g mem
      rw [way, List.mem_filter, Bool.or_eq_true, beq_iff_eq, Bool.not_eq_true'] at mem
      rw [unmodified g mem.1 mem.2]
      exact Bool.false_ne_true
    have body : bodyField a s = .ok { s with form := s.form.define s.clock.second f } := by
      rw [bodyField_of_record asked, reachable, unsuspended, unmarked]
      exact if_neg (Nat.not_le.mpr room)
    rw [exec_accepted rfl fetched body, defined, way, shape]

end Sys2Proof.Machine
end

section
/-! PROOFS. WRITE, FILL and ERASE: a run of host writes over the form. -/

namespace Sys2Proof.Machine

open Sys2Proof

/-! ## The marks that a run leaves (R37, R38) -/

/-- The record with its collision mark set when its tag is listed. -/
def Field.collided (tags : List Nat) (f : Field) : Field :=
  { f with collision := f.collision || tags.contains f.tag }

theorem Field.collided_keepsPlace (tags : List Nat) : Field.KeepsPlace (Field.collided tags) :=
  ⟨fun _ => rfl, fun _ => rfl, fun _ => rfl⟩

theorem Field.collided_eq (tags : List Nat) (f : Field) :
    f.collided tags = if tags.contains f.tag then { f with collision := true } else f := by
  unfold Field.collided
  cases tags.contains f.tag with
  | true => rw [Bool.or_true, if_pos rfl]
  | false => rw [Bool.or_false, if_neg Bool.false_ne_true]

theorem Field.collided_append (tags : List Nat) (t : Nat) (f : Field) :
    f.collided (tags ++ [t]) =
      if (f.collided tags).tag = t then { f.collided tags with collision := true }
      else f.collided tags := by
  have append : (tags ++ [t]).contains f.tag = (tags.contains f.tag || f.tag == t) := by
    rw [Bool.eq_iff_iff]
    simp
  rw [Field.collided, append, ← Bool.or_assoc]
  change _ = if f.tag = t then _ else _
  split
  case isTrue same => rw [beq_iff_eq.mpr same, Bool.or_true]; rfl
  case isFalse other => rw [beq_eq_false_iff_ne.mpr other, Bool.or_false]; rfl

/-- The form with the collision marks of these tags set, and with these cells. -/
def Form.collided (fm : Form) (tags : List Nat) (cells : Store) : Form :=
  { fm.mapRecords (Field.collided tags) with cells := cells }

section

variable {fm : Form} {tags : List Nat} {cells : Store} {p : Nat}

theorem Form.mapRecords_mapRecords (fm : Form) (g h : Field → Field) :
    (fm.mapRecords g).mapRecords h = fm.mapRecords (h ∘ g) := by
  unfold Form.mapRecords Form.mapSuspended
  cases fm.overlay <;> simp

theorem Form.mapRecords_id (fm : Form) {g : Field → Field} (same : ∀ f, g f = f) :
    fm.mapRecords g = fm := by
  rw [show g = id from funext same]
  unfold Form.mapRecords Form.mapSuspended
  cases opened : fm.overlay <;> simp [← opened]

theorem Form.collided_nil (fm : Form) : fm.collided [] fm.cells = fm := by
  rw [Form.collided, Form.mapRecords_id fm fun f => by simp [Field.collided]]

theorem Form.collided_setScreen (c : Cell) : (fm.collided tags cells).setScreen p c =
    fm.collided tags (writeCell cells p c) := rfl

theorem Form.collided_mapTag (t : Nat) :
    (fm.collided tags cells).mapTag t (fun f => { f with collision := true }) =
      fm.collided (tags ++ [t]) cells := by
  have combined : Field.collided (tags ++ [t]) =
      (fun f => if f.tag = t then { f with collision := true } else f) ∘ Field.collided tags :=
    funext fun f => f.collided_append tags t
  rw [Form.collided, Form.collided, combined, ← Form.mapRecords_mapRecords]
  rfl

theorem Form.mapRecords_writeOwner {g : Field → Field} (keeps : Field.KeepsPlace g) (p : Nat) :
    (fm.mapRecords g).writeOwner p = (fm.writeOwner p).map g := by
  have suspended : (fm.mapRecords g).suspendedAt p = (fm.suspendedAt p).map g := by
    unfold Form.suspendedAt
    rw [Form.mapRecords_inWindow, Form.mapRecords_suspended, List.find?_map]
    simp only [Function.comp_def, keeps.covers]
    split <;> rfl
  unfold Form.writeOwner
  rw [Form.mapRecords_fieldAt keeps, suspended]
  cases fm.fieldAt p <;> rfl

theorem Form.collided_writeOwner :
    (fm.collided tags cells).writeOwner p = (fm.writeOwner p).map (Field.collided tags) :=
  Form.mapRecords_writeOwner (Field.collided_keepsPlace tags) p

/-! ## One cell of a run (R37, R38, R52) -/

/-- The tags of the owners that hold a write off. -/
def heldTags (owners : List Field) : List Nat := (owners.filter (·.modified)).map (·.tag)

/-- The tags of the owners whose cells are written. -/
def writtenTags (owners : List Field) : List Nat := (owners.filter fun g => !g.modified).map (·.tag)

/-- The store after the write of one cell, unless it is held off. -/
def Form.cellWritten (fm : Form) (cells : Store) (p : Nat) (c : Cell) : Store :=
  if fm.heldOff p then cells else writeCell cells p c

theorem Form.collided_hostCell (c : Cell) : (fm.collided tags cells).hostCell p c =
    (fm.collided (tags ++ heldTags (fm.writeOwner p).toList) (fm.cellWritten cells p c),
      (writtenTags (fm.writeOwner p).toList).head?) := by
  rw [Form.hostCell_eq, Form.collided_writeOwner, Form.cellWritten, Form.heldOff]
  cases fm.writeOwner p with
  | none => simp [heldTags, writtenTags, Form.collided_setScreen]
  | some g =>
    simp only [Option.map_some, Option.elim_some, Option.any_some, Option.toList_some]
    have tag : (g.collided tags).tag = g.tag := rfl
    change (if g.modified then _ else _) = _
    by_cases marked : g.modified = true
    · simp [heldTags, writtenTags, marked, tag, Form.collided_mapTag]
    · simp [heldTags, writtenTags, marked, tag, Form.collided_setScreen]

/-! ## The run -/

/-- The owners met by a run of so many cells. -/
def Form.runOwners (fm : Form) (p : Nat) : Nat → List Field
  | 0 => []
  | n + 1 => (fm.writeOwner p).toList ++ fm.runOwners (nextPosition p) n

/-- The store after a run. -/
def Form.runStore (fm : Form) (cells : Store) (p : Nat) : List Cell → Store
  | [] => cells
  | c :: rest => fm.runStore (fm.cellWritten cells p c) (nextPosition p) rest

theorem heldTags_append (l l' : List Field) : heldTags (l ++ l') = heldTags l ++ heldTags l' := by
  simp [heldTags]

theorem writtenTags_append (l l' : List Field) :
    writtenTags (l ++ l') = writtenTags l ++ writtenTags l' := by
  simp [writtenTags]

theorem writtenTags_toList (o : Option Field) : (writtenTags o.toList).head?.toList = writtenTags o.toList := by
  cases o with
  | none => rfl
  | some g => cases marked : g.modified <;> simp [writtenTags, marked]

/-- The place of a cell of a run (R2). -/
def placeOf (p i : Nat) : Nat := (p + i) % 2688

theorem nextPosition_lt (p : Nat) : nextPosition p < 2688 := Nat.mod_lt _ (by decide)

theorem placeOf_succ (p i : Nat) : placeOf (nextPosition p) i = placeOf p (i + 1) := by
  unfold placeOf nextPosition cellCount
  omega

theorem placeOf_zero (inStore : p < 2688) : placeOf p 0 = p := Nat.mod_eq_of_lt inStore

theorem Form.collided_hostRun (inStore : p < 2688) (run : List Cell) :
    (fm.collided tags cells).hostRun p run =
      (fm.collided (tags ++ heldTags (fm.runOwners p run.length)) (fm.runStore cells p run),
        placeOf p run.length, writtenTags (fm.runOwners p run.length)) := by
  induction run generalizing tags cells p with
  | nil => simp [Form.hostRun, Form.runOwners, Form.runStore, heldTags, writtenTags, placeOf_zero inStore]
  | cons c rest ih =>
    rw [Form.hostRun, Form.collided_hostCell]
    dsimp only
    rw [ih (nextPosition_lt _), List.length_cons, Form.runOwners, Form.runStore,
      heldTags_append, writtenTags_append, writtenTags_toList, placeOf_succ, List.append_assoc]

/-- The owners of a run, place by place. -/
theorem Form.runOwners_eq (inStore : p < 2688) (n : Nat) : fm.runOwners p n =
    (List.range n).filterMap fun i => fm.writeOwner (placeOf p i) := by
  induction n generalizing p with
  | zero => rfl
  | succ n ih =>
    rw [Form.runOwners, ih (nextPosition_lt _), List.range_succ_eq_map, List.filterMap_cons,
      List.filterMap_map, placeOf_zero inStore]
    simp only [Function.comp_def, placeOf_succ]
    cases fm.writeOwner p <;> rfl

/-! ## The cells of a run -/

theorem Form.cellWritten_wf (canonical : storeWf cells = true) (c : Cell) :
    storeWf (fm.cellWritten cells p c) = true := by
  unfold Form.cellWritten
  split
  exacts [canonical, writeCell_wf p c canonical]

theorem Form.cellWritten_other (c : Cell) {q : Nat} (other : q ≠ p) :
    readCell (fm.cellWritten cells p c) q = readCell cells q := by
  unfold Form.cellWritten
  split
  exacts [rfl, readCell_writeCell_other cells c other]

theorem Form.cellWritten_same (canonical : storeWf cells = true) (c : Cell) :
    readCell (fm.cellWritten cells p c) p = if fm.heldOff p then readCell cells p else c := by
  unfold Form.cellWritten
  split
  exacts [rfl, readCell_writeCell_same p c canonical]

theorem Form.runStore_elsewhere (inStore : p < 2688) (run : List Cell) {q : Nat}
    (elsewhere : ∀ i < run.length, q ≠ placeOf p i) :
    readCell (fm.runStore cells p run) q = readCell cells q := by
  induction run generalizing cells p with
  | nil => rfl
  | cons c rest ih =>
    have here := elsewhere 0 (Nat.succ_pos _)
    rw [placeOf_zero inStore] at here
    rw [Form.runStore, ih (nextPosition_lt _), Form.cellWritten_other c here]
    intro i inside
    rw [placeOf_succ]
    exact elsewhere (i + 1) (Nat.succ_lt_succ inside)

/-- A run that does not come round to its own cells writes each cell that is not held off. -/
theorem Form.runStore_place (canonical : storeWf cells = true) (inStore : p < 2688) (run : List Cell)
    (short : run.length ≤ 2688) {i : Nat} (inside : i < run.length) :
    readCell (fm.runStore cells p run) (placeOf p i) =
      if fm.heldOff (placeOf p i) then readCell cells (placeOf p i)
      else run.getD i { glyph := 0, style := 0 } := by
  induction run generalizing cells p i with
  | nil => cases inside
  | cons c rest ih =>
    rw [List.length_cons] at short inside
    have apart (j : Nat) (later : j < rest.length) : p ≠ placeOf p (j + 1) := by
      unfold placeOf
      omega
    rw [Form.runStore]
    cases i with
    | zero =>
      rw [placeOf_zero inStore, Form.runStore_elsewhere (nextPosition_lt _) rest fun j later => by
        rw [placeOf_succ]
        exact apart j later, Form.cellWritten_same canonical]
      rfl
    | succ i =>
      have later := Nat.lt_of_succ_lt_succ inside
      rw [← placeOf_succ, ih (Form.cellWritten_wf canonical c) (nextPosition_lt _)
        (Nat.le_of_succ_le short) later, placeOf_succ, Form.cellWritten_other c (apart i later).symm]
      rfl

end

/-! ## WRITE, FILL and ERASE (R49 to R51) -/

theorem State.hostWrite_eq (s : State) (inStore : s.stream.writePos < 2688) (run : List Cell) :
    s.hostWrite run =
      { s with
        form := (s.form.collided (heldTags (s.form.runOwners s.stream.writePos run.length))
            (s.form.runStore s.form.cells s.stream.writePos run)).recomputeNaming
          (writtenTags (s.form.runOwners s.stream.writePos run.length))
        stream := { s.stream with writePos := placeOf s.stream.writePos run.length } } := by
  have run := Form.collided_hostRun (fm := s.form) (tags := []) (cells := s.form.cells) inStore run
  rw [Form.collided_nil, List.nil_append] at run
  rw [State.hostWrite, run]

theorem cellCountOf_ok {n : Half} (some : 1 ≤ n.toNat) (few : n.toNat ≤ 2688) :
    cellCountOf n = .ok n.toNat := by
  refine if_neg (not_or.mpr ⟨?_, Nat.not_lt.mpr few⟩)
  rintro rfl
  cases some

/-- Settles O19: each of the three directives writes its run. -/
theorem hostCellRun : Obligations.HostCellRun := by
  intro s d run left directive canonical fetched inStore short place owners holdsOff written
  refine ⟨s.form.runStore s.form.cells s.stream.writePos run,
    fun i inside => Form.runStore_place (Form.storeLaw_iff.mp canonical).1 inStore run short inside,
    fun p elsewhere => Form.runStore_elsewhere inStore run elsewhere, ?_⟩
  have writes : exec d s = .next ((s.hostWrite run).reachOffset left) := by
    obtain ⟨glyphs, rfl, some, rfl⟩ | ⟨g, n, rfl, some, rfl⟩ | ⟨n, rfl, some, rfl⟩ := directive
    · exact exec_accepted rfl fetched (if_neg some)
    all_goals rw [List.length_replicate] at short
    · exact exec_accepted rfl fetched (by rw [bodyFill, cellCountOf_ok some short])
    · exact exec_accepted rfl fetched (by rw [bodyErase, cellCountOf_ok some short]; rfl)
  have marks : Field.collided (heldTags owners) =
      fun f => if holdsOff f then { f with collision := true } else f := by
    funext f
    have held : (heldTags owners).contains f.tag = holdsOff f := by
      rw [Bool.eq_iff_iff]
      simp [heldTags, holdsOff, and_assoc]
    rw [Field.collided_eq, held]
  rw [writes, State.hostWrite_eq s inStore, Form.runOwners_eq inStore]
  change Host.Outcome.next (State.reachOffset
    { s with
      form := Form.recomputeNaming { s.form.mapRecords (Field.collided (heldTags owners)) with cells := _ } written
      stream := _ } left) = _
  rw [marks]
  rfl

end Sys2Proof.Machine
end

section
/-! PROOFS. The exit test acted on, the changes of current field, the text of a PUT and of a scan's
placement. -/

namespace Sys2Proof.Machine

open Sys2Proof

/-! ## The rewrite in canonical form (R70) -/

/-- What a field's content is rewritten to, when it is rewritten at all (R70). -/
def rewriteOf (f : Field) (content : List Byte) : Option (List Byte) :=
  match f.cls with
  | .numeric n =>
    (match parseNumber n f.length content with
     | .value v => if f.opts.normalise then some (canonical n f.length v) else none
     | .empty | .format | .range => none)
  | .alpha | .code _ | .none => none

theorem length_le_of_rewriteOf {f : Field} {content glyphs : List Byte}
    (rewritten : rewriteOf f content = some glyphs) : f.length ≤ glyphs.length := by
  unfold rewriteOf at rewritten
  split at rewritten
  · split at rewritten
    · split_ifs at rewritten
      cases rewritten
      exact length_le_canonical ..
    all_goals cases rewritten
  all_goals cases rewritten

/-- A content that fails its exit test is not rewritten. -/
theorem rewriteOf_of_exitTest {f : Field} {content : List Byte} (fails : exitTest f content ≠ none) :
    rewriteOf f content = none := by
  cases cls : f.cls with
  | numeric n =>
    cases parsed : parseNumber n f.length content with
    | value v => exact absurd (by simp only [exitTest, cls, parsed]) fails
    | empty | format | range => simp only [rewriteOf, cls, parsed]
  | alpha | code | none => simp only [rewriteOf, cls]

/-- A glyph of a text within its field is one of the text cut to the field. -/
theorem getD_take_of_covers {f : Field} {p : Nat} (covered : f.covers p = true) (l : List Byte) :
    (l.take f.length).getD (p - f.start) 0 = l.getD (p - f.start) 0 := by
  rw [Field.covers_iff] at covered
  have early : p - f.start < f.length := by omega
  rw [List.getD_eq_getElem?_getD, List.getD_eq_getElem?_getD, List.getElem?_take_of_lt early]

section

variable {fm : Form} {susp : Bool} {f : Field}

theorem Form.normalise_eq (fm : Form) (susp : Bool) (f : Field) : fm.normalise susp f =
    (rewriteOf f (fm.content susp f)).elim fm (fm.writeContent susp f) := by
  unfold Form.normalise rewriteOf
  cases f.cls with
  | numeric n =>
    dsimp only
    cases parseNumber n f.length (fm.content susp f) with
    | value v => cases f.opts.normalise <;> rfl
    | empty | format | range => exact ite_self fm
  | alpha | code | none => rfl

theorem Form.normalise_of_exitTest (fails : exitTest f (fm.content susp f) ≠ none) :
    fm.normalise susp f = fm := by
  rw [Form.normalise_eq, rewriteOf_of_exitTest fails, Option.elim_none]

theorem Form.normalise_false (fm : Form) (f : Field) :
    fm.normalise false f = { fm with cells := (fm.normalise false f).cells } := by
  rw [Form.normalise_eq]
  cases rewriteOf f (fm.content false f) with
  | none => rfl
  | some glyphs => exact Form.writeContent_false ..

theorem Form.readCell_normalise (canonical : fm.storeLaw = true) (f : Field) (p : Nat) :
    readCell (fm.normalise false f).cells p =
      if f.covers p = true then (rewriteOf f (fm.content false f)).elim (readCell fm.cells p) fun glyphs =>
        { glyph := glyphs.getD (p - f.start) 0, style := f.normal }
      else readCell fm.cells p := by
  rw [Form.normalise_eq]
  cases rewritten : rewriteOf f (fm.content false f) with
  | none => exact (ite_self _).symm
  | some glyphs => exact Form.readCell_writeContent canonical (length_le_of_rewriteOf rewritten) p

/-! ## The exit test acted on (R75) -/

theorem Form.setError_content (t : Nat) (e : Option ErrorKind) :
    (fm.setError t e).content susp f = fm.content susp f := Form.mapRecords_content ..

theorem Form.setError_storeLaw (t : Nat) (e : Option ErrorKind) :
    (fm.setError t e).storeLaw = fm.storeLaw := Form.mapRecords_storeLaw ..

theorem Form.applyExitTest_eq (fm : Form) (f : Field) : fm.applyExitTest f =
    Form.recomputeNaming
      { fm.setError f.tag (exitTest f (fm.content false f)) with
        cells := ((fm.setError f.tag (exitTest f (fm.content false f))).normalise false f).cells }
      [f.tag] := by
  unfold Form.applyExitTest
  dsimp only
  split
  case isTrue passes => rw [← Form.normalise_false]
  case isFalse fails => rw [Form.normalise_of_exitTest (by rwa [Form.setError_content])]

end

/-! ## Changes of current field (R101, R102, R110) -/

section

variable {fm : Form} {insertAtEntry push : Bool} {p : Nat}

theorem Form.moveTo_within (same : fm.current.map (·.tag) = (fm.fieldAt p).map (·.tag)) :
    fm.moveTo insertAtEntry push p = { fm with cursor := p } :=
  if_pos same

theorem Form.moveTo_across (differ : fm.current.map (·.tag) ≠ (fm.fieldAt p).map (·.tag)) :
    fm.moveTo insertAtEntry push p = { fm.exitProcess with
      history := if push then pushLeft fm.history fm.current else fm.history
      cursor := p
      insert := if (fm.fieldAt p).isSome then insertAtEntry else fm.insert
      visit := false } := by
  refine (if_neg differ).trans ?_
  simp only [Form.exitProcess_history, Form.exitProcess_insert]

theorem Form.exitProcess_of_not (unvisited : fm.visit = false ∨ fm.current = none) :
    fm.exitProcess = fm := by
  unfold Form.exitProcess
  split
  case h_2 => rfl
  case h_1 f here =>
    obtain unvisited | outside := unvisited
    · rw [unvisited]
      rfl
    · rw [outside] at here
      cases here

theorem Form.exitProcess_of_visit {f : Field} (here : fm.current = some f) (visited : fm.visit = true) :
    fm.exitProcess = { fm.applyExitTest f with visit := false } := by
  rw [Form.exitProcess, here]
  exact if_pos visited

end

/-- Settles O41, move by move, and exit processing after a visit. -/
theorem currentFieldChanges : Obligations.CurrentFieldChanges := by
  refine ⟨fun fm insertAtEntry push p => ⟨Form.moveTo_within, fun differ => ?_⟩,
    fun fm unvisited => Form.exitProcess_of_not unvisited,
    fun fm f lawful canonical visited here entry => ?_⟩
  · rw [Form.moveTo_across differ, Option.isSome_map]
    cases push with
    | false => rfl
    | true => cases fm.current <;> rfl
  · intro content rewrite
    refine ⟨((fm.setError f.tag (exitTest f content)).normalise false f).cells, fun p => ?_, ?_⟩
    · rw [Form.readCell_normalise ((Form.setError_storeLaw ..).trans canonical), Form.setError_content]
      change (if _ then rewrite.elim _ _ else _) = _
      cases rewrite <;> cases f.covers p <;> rfl
    · rw [Form.exitProcess_of_visit here visited, Form.applyExitTest_eq]
      rfl

end Sys2Proof.Machine
end

section
/-! PROOFS. PUT: the text placed, its parse acted on, and what stands. -/

namespace Sys2Proof.Machine

open Sys2Proof

/-! ## The text and its parse (R28, R29) -/

theorem length_placedText (f : Field) (glyphs : List Byte) : (placedText f glyphs).length = f.length := by
  have short := List.length_take_le f.length glyphs
  unfold placedText
  split
  all_goals
    rw [List.length_append, List.length_replicate]
    omega

/-- The parse of a text put, in the kinds whose parse is acted on (R29). -/
def putOutcome (f : Field) (text : List Byte) : Parsed :=
  match f.cls with
  | .numeric n => if f.kind = .fixed then .empty else parseNumber n f.length text
  | .alpha | .code _ | .none => .empty

/-- The error mark by an outcome (R29). -/
def Parsed.mark : Parsed → Option ErrorKind
  | .format => some .format
  | .range => some .range
  | .empty | .value _ => none

theorem exitTest_of_numeric {f : Field} {n : NumPart} (cls : f.cls = .numeric n) (text : List Byte) :
    exitTest f text = (parseNumber n f.length text).mark := by
  simp only [exitTest, cls]
  cases parseNumber n f.length text <;> rfl

/-- What a text put is rewritten to, when it is rewritten at all (R29). -/
def putRewrite (f : Field) (text : List Byte) : Option (List Byte) :=
  if f.kind = .fixed then none else rewriteOf f text

theorem length_le_of_putRewrite {f : Field} {text glyphs : List Byte}
    (rewritten : putRewrite f text = some glyphs) : f.length ≤ glyphs.length := by
  unfold putRewrite at rewritten
  split_ifs at rewritten
  exact length_le_of_rewriteOf rewritten

/-- The content that a PUT leaves. -/
def putContent (f : Field) (glyphs : List Byte) : List Byte :=
  (putRewrite f (placedText f glyphs)).getD (placedText f glyphs)

theorem length_le_putContent (f : Field) (glyphs : List Byte) : f.length ≤ (putContent f glyphs).length := by
  unfold putContent
  cases rewritten : putRewrite f (placedText f glyphs) with
  | none => exact (length_placedText f glyphs).ge
  | some text => exact length_le_of_putRewrite rewritten

/-- The verdict of a PUT, as the model forms it. -/
def putVerdict (f : Field) (text : List Byte) : Option ErrorKind :=
  match f.cls with
  | .numeric _ => if f.kind = .entry || f.kind = .live then exitTest f text else none
  | .alpha | .code _ | .none => none

section

variable {f : Field} (notTally : f.kind ≠ .tally) (notClock : f.kind ≠ .clock)

include notTally notClock

theorem checked_iff : (decide (f.kind = .entry) || decide (f.kind = .live)) = true ↔ f.kind ≠ .fixed := by
  cases kind : f.kind with
  | entry | fixed | live => decide
  | tally => exact absurd kind notTally
  | clock => exact absurd kind notClock

theorem putVerdict_eq (text : List Byte) : putVerdict f text = (putOutcome f text).mark := by
  unfold putVerdict putOutcome
  cases cls : f.cls with
  | numeric n =>
    simp only [checked_iff notTally notClock, ite_not]
    by_cases fixed : f.kind = .fixed
    · rw [if_pos fixed, if_pos fixed]
      rfl
    · rw [if_neg fixed, if_neg fixed, exitTest_of_numeric cls]
  | alpha | code | none => rfl

end

/-- A text that fails is not rewritten, so that the rewrite needs no look at the verdict. -/
theorem putRewrite_of_verdict {text : List Byte} (fails : putVerdict f text ≠ none) :
    putRewrite f text = none := by
  unfold putVerdict at fails
  unfold putRewrite
  split
  case isTrue => rfl
  case isFalse rewrites =>
    refine rewriteOf_of_exitTest fun passes => fails ?_
    split
    · rw [passes, ite_self]
    all_goals rfl

/-! ## The form with the text put (R27 to R30) -/

/-- The form after a PUT, before the tallies follow. -/
def Form.textPut (fm : Form) (susp : Bool) (f : Field) (glyphs : List Byte) : Form :=
  let text := placedText f glyphs
  let marked := (fm.writeContent susp f text).setError f.tag (putVerdict f text)
  let rewritten := (putRewrite f text).elim marked (marked.writeContent susp f)
  let cleared := rewritten.mapTag f.tag fun g => { g with modified := false }
  { cleared with visit := cleared.visit && !(!susp && fm.isCurrent f.tag) }

section

variable {fm : Form} {susp : Bool} {f : Field} {glyphs : List Byte}

/-- The text of a PUT read back from the form in which it stands. -/
theorem Form.content_placed (canonical : fm.storeLaw = true) (susp : Bool) (f : Field)
    (glyphs : List Byte) :
    (fm.writeContent susp f (placedText f glyphs)).content susp f = placedText f glyphs := by
  rw [Form.content_writeContent canonical susp (length_placedText f glyphs).ge,
    List.take_of_length_le (length_placedText f glyphs).le]

/-- A text whose parse is acted on is rewritten by its exit test; no other is (R29). -/
theorem putRewrite_eq (notTally : f.kind ≠ .tally) (notClock : f.kind ≠ .clock) (text : List Byte) :
    putRewrite f text =
      if (decide (f.kind = .entry) || decide (f.kind = .live)) && (putVerdict f text).isNone then
        rewriteOf f text else none := by
  have checked := checked_iff notTally notClock
  split
  case isTrue acted =>
    exact if_neg (checked.mp (Bool.and_eq_true_iff.mp acted).1)
  case isFalse left =>
    rw [Bool.and_eq_true, checked, not_and_or, not_not, Option.isNone_iff_eq_none] at left
    obtain fixed | fails := left
    · exact if_pos fixed
    · exact putRewrite_of_verdict fails

theorem Form.putText_eq (canonical : fm.storeLaw = true) (notTally : f.kind ≠ .tally)
    (notClock : f.kind ≠ .clock) :
    fm.putText susp f glyphs = (fm.textPut susp f glyphs).recomputeNaming [f.tag] := by
  let placed := fm.writeContent susp f (placedText f glyphs)
  let marked := placed.setError f.tag (putVerdict f (placed.content susp f))
  let acted : Bool := (decide (f.kind = .entry) || decide (f.kind = .live)) &&
    (putVerdict f (placed.content susp f)).isNone
  let cleared (rewritten : Form) := rewritten.mapTag f.tag fun g => { g with modified := false }
  let left (rewritten : Form) : Form :=
    { cleared rewritten with
      visit := (cleared rewritten).visit && !(!susp && fm.isCurrent f.tag) }
  have unfolded : fm.putText susp f glyphs =
      (left (if acted then marked.normalise susp f else marked)).recomputeNaming [f.tag] := rfl
  have content : placed.content susp f = placedText f glyphs := Form.content_placed canonical susp f glyphs
  have rewritten : (if acted then marked.normalise susp f else marked) =
      (putRewrite f (placedText f glyphs)).elim marked (marked.writeContent susp f) := by
    rw [putRewrite_eq notTally notClock, Form.normalise_eq, Form.setError_content, ← content]
    split <;> rfl
  rw [unfolded, rewritten]
  simp only [left, cleared, marked, content]
  rfl

/-- The cells after a PUT: the field's own show its content, in its normal style; no other changes. -/
theorem Form.textPut_storedCell (canonical : fm.storeLaw = true) (saved : Bool) (p : Nat) :
    (fm.textPut susp f glyphs).storedCell saved p =
      if f.covers p = true ∧ saved = fm.inSaved susp p then
        { glyph := (putContent f glyphs).getD (p - f.start) 0, style := f.normal }
      else fm.storedCell saved p := by
  have cleared (g : Form) (b : Bool) : Form.storedCell { g with visit := b } saved p = g.storedCell saved p :=
    rfl
  have whole := (length_placedText f glyphs).ge
  have placed : (fm.writeContent susp f (placedText f glyphs)).storeLaw = true :=
    Form.writeContent_storeLaw canonical susp f _
  unfold Form.textPut
  rw [cleared, Form.mapTag, Form.mapRecords_storedCell]
  unfold putContent
  cases rewritten : putRewrite f (placedText f glyphs) with
  | none =>
    rw [Option.elim_none, Form.setError, Form.mapTag, Form.mapRecords_storedCell, Option.getD_none,
      Form.writeContent_storedCell canonical susp whole]
  | some text =>
    rw [Option.elim_some, Option.getD_some,
      Form.writeContent_storedCell ((Form.setError_storeLaw ..).trans placed) susp
        (length_le_of_putRewrite rewritten)]
    have place : ((fm.writeContent susp f (placedText f glyphs)).setError f.tag
        (putVerdict f (placedText f glyphs))).inSaved susp p = fm.inSaved susp p :=
      Form.inSaved_congr (by simp [Form.setError, Form.mapTag]) susp p
    rw [place, Form.setError, Form.mapTag, Form.mapRecords_storedCell,
      Form.writeContent_storedCell canonical susp whole]
    split
    case isTrue => rfl
    case isFalse other => rfl

/-- A PUT leaves the save area's place, the cursor and the history, and ends the visit of its field. -/
theorem Form.textPut_frame (fm : Form) (susp : Bool) (f : Field) (glyphs : List Byte) :
    (fm.textPut susp f glyphs).savedPlace = fm.savedPlace ∧
    (fm.textPut susp f glyphs).cursor = fm.cursor ∧ (fm.textPut susp f glyphs).insert = fm.insert ∧
    (fm.textPut susp f glyphs).history = fm.history ∧
    (fm.textPut susp f glyphs).visit = (fm.visit && (susp || !fm.isCurrent f.tag)) := by
  have place (g : Form) (v : Bool) : Form.savedPlace { g with visit := v } = g.savedPlace := rfl
  unfold Form.textPut
  dsimp only
  rw [place]
  cases putRewrite f (placedText f glyphs) <;> simp [Form.setError, Form.mapTag]

theorem Form.textPut_window (fm : Form) (susp : Bool) (f : Field) (glyphs : List Byte) :
    (fm.textPut susp f glyphs).window = fm.window := by
  rw [Form.window_eq_savedPlace, Form.window_eq_savedPlace, (fm.textPut_frame susp f glyphs).1]

theorem Form.textPut_cellOf (canonical : fm.storeLaw = true) {p : Nat} (covered : f.covers p = true) :
    (fm.textPut susp f glyphs).cellOf susp p =
      { glyph := (putContent f glyphs).getD (p - f.start) 0, style := f.normal } := by
  have place : (fm.textPut susp f glyphs).inSaved susp p = fm.inSaved susp p :=
    Form.inSaved_congr (fm.textPut_window susp f glyphs) susp p
  rw [Form.cellOf_eq_storedCell, Form.textPut_storedCell canonical, place, if_pos ⟨covered, rfl⟩]

/-- The marks after a PUT (R30). -/
theorem Form.textPut_records (b : Bool) : (fm.textPut susp f glyphs).records b =
    (fm.records b).map fun g =>
      if g.tag = f.tag then
        { g with modified := false, errorMark := putVerdict f (placedText f glyphs) }
      else g := by
  have visit (g : Form) (v : Bool) : Form.records { g with visit := v } b = g.records b := by
    cases b <;> rfl
  have marked (g : Form) : (g.setError f.tag (putVerdict f (placedText f glyphs))).records b =
      (g.records b).map fun h => if h.tag = f.tag then
        { h with errorMark := putVerdict f (placedText f glyphs) } else h := Form.mapRecords_records ..
  unfold Form.textPut
  dsimp only
  rw [visit, Form.mapTag, Form.mapRecords_records]
  cases putRewrite f (placedText f glyphs)
  all_goals
    simp only [Option.elim_none, Option.elim_some, Form.writeContent_records, marked, List.map_map]
    refine List.map_congr_left fun g _ => ?_
    by_cases same : g.tag = f.tag <;> simp [same]

end

/-- What a PUT shows, by its outcome (R28, R29, R70). -/
theorem take_putContent (f : Field) (glyphs : List Byte) : (putContent f glyphs).take f.length =
    (match f.cls, putOutcome f (placedText f glyphs) with
     | .numeric n, .value v =>
       if f.opts.normalise then (canonical n f.length v).take f.length else placedText f glyphs
     | _, _ => placedText f glyphs) := by
  have whole : (placedText f glyphs).take f.length = placedText f glyphs :=
    List.take_of_length_le (length_placedText f glyphs).le
  unfold putContent putRewrite putOutcome rewriteOf
  cases f.cls with
  | numeric n =>
    by_cases fixed : f.kind = .fixed
    · simp [fixed, whole]
    · simp only [if_neg fixed]
      cases parseNumber n f.length (placedText f glyphs) with
      | value v => cases f.opts.normalise <;> simp [whole]
      | empty | format | range => simp [whole]
  | alpha | code | none => simp [whole]

/-- Settles O28: the body accepts the text, and each part of the form is as the text leaves it. -/
theorem putReplaces : Obligations.PutReplaces := by
  intro s tag force glyphs left f susp lawful canonical fetched nonzero small held notTally notClock free
    text placed outcome treated
  have sameText : placed = placedText f glyphs := rfl
  have sameOutcome : outcome = putOutcome f (placedText f glyphs) := rfl
  have sameTag : f.tag = tag.toNat := ((Form.lawful_iff.mp lawful).record_iff.mp held).2
  have sameMarks : (fun g : Field => if g.tag = f.tag then
      { g with modified := false, errorMark := putVerdict f (placedText f glyphs) } else g) = treated := by
    funext g
    rw [putVerdict_eq notTally notClock, ← sameOutcome, sameTag]
    rfl
  obtain ⟨place, cursor, insert, history, visit⟩ := s.form.textPut_frame susp f glyphs
  have inWindow (p : Nat) : s.form.inSaved susp p = (susp && s.form.inWindow p) := rfl
  refine ⟨s.form.textPut susp f glyphs, exec_accepted rfl fetched ?_, ?_, fun p covered => ?_, ?_, ?_,
    fun p clear => ?_, fun p clear => ?_, place, cursor, insert, history, ?_⟩
  · have unforced : ¬(f.modified && !force.getLsbD 0) = true := by
      obtain unmodified | forced := free
      · simp [unmodified]
      · simp only [forced, Bool.not_true, Bool.and_false, Bool.false_eq_true, not_false_iff]
    rw [bodyPut_of_held ⟨nonzero, small⟩ held, if_neg (not_or.mpr ⟨notTally, notClock⟩), if_neg unforced,
      Form.putText_eq canonical notTally notClock, sameTag]
  · refine Eq.trans ?_ (take_putContent f glyphs)
    refine Form.content_eq_of_getD (by simp [length_le_putContent]) fun p covered => ?_
    rw [Form.textPut_cellOf canonical covered, getD_take_of_covers covered]
  · rw [Form.textPut_cellOf canonical covered]
  · rw [← sameMarks]
    exact Form.textPut_records false
  · rw [← sameMarks]
    exact Form.textPut_records true
  · refine (Form.textPut_storedCell canonical false p).trans (if_neg ?_)
    rintro ⟨covered, screen⟩
    rw [inWindow] at screen
    obtain uncovered | ⟨rfl, inside⟩ := clear
    · rw [covered] at uncovered
      cases uncovered
    · rw [inside] at screen
      cases screen
  · refine Form.savedCell_congr (s.form.textPut_window susp f glyphs)
      ((Form.textPut_storedCell canonical true p).trans (if_neg ?_))
    rintro ⟨covered, saved⟩
    rw [inWindow] at saved
    obtain uncovered | rfl | outside := clear
    · rw [covered] at uncovered
      cases uncovered
    · cases saved
    · rw [outside, Bool.and_false] at saved
      cases saved
  · rw [visit, sameTag]

end Sys2Proof.Machine
end

section
/-! PROOFS. What a scan's placement writes. -/

namespace Sys2Proof.Machine

open Sys2Proof

section

variable {fm : Form} {f : Field}

theorem Form.moveTo_storeLaw (canonical : fm.storeLaw = true) (insertAtEntry push : Bool) (p : Nat) :
    (fm.moveTo insertAtEntry push p).storeLaw = true := by
  by_cases same : fm.current.map (·.tag) = (fm.fieldAt p).map (·.tag)
  · rw [Form.moveTo_within same]
    exact canonical
  · rw [Form.moveTo_across same]
    exact Form.exitProcess_storeLaw canonical

theorem Form.isCurrent_iff {t : Nat} : fm.isCurrent t = true ↔ fm.current.map (·.tag) = some t := by
  unfold Form.isCurrent
  cases fm.current <;> simp

/-- The record that a placement writes, with its marks (R131). -/
def Field.scanned (t : Nat) (g : Field) : Field :=
  if g.tag = t then { g with modified := true, errorMark := none } else g

/-- The form that a passing candidate leaves in its field, before the tallies follow (R131, R76). -/
def Form.candidatePlaced (fm : Form) (f : Field) (candidate : List Byte) : Form :=
  ((fm.writeContent false f candidate).mapRecords (Field.scanned f.tag)).normalise false f

theorem Form.candidatePlaced_eq (fm : Form) (f : Field) (candidate : List Byte) :
    fm.candidatePlaced f candidate = { fm.mapRecords (Field.scanned f.tag) with
      cells := (fm.candidatePlaced f candidate).cells } := by
  rw [Form.candidatePlaced, Form.normalise_false]
  generalize (((fm.writeContent false f candidate).mapRecords (Field.scanned f.tag)).normalise false f).cells =
    cells
  rw [Form.writeContent_false]
  rfl

theorem Form.applyExitTest_candidate (canonical : fm.storeLaw = true) {candidate : List Byte}
    (whole : candidate.length = f.length) (passes : exitTest f candidate = none) :
    ((fm.writeContent false f candidate).mapTag f.tag fun g => { g with modified := true }).applyExitTest f =
      (fm.candidatePlaced f candidate).recomputeNaming [f.tag] := by
  have content : ((fm.writeContent false f candidate).mapTag f.tag fun g =>
      { g with modified := true }).content false f = candidate := by
    rw [Form.mapTag, Form.mapRecords_content, Form.content_writeContent canonical false whole.ge,
      List.take_of_length_le whole.le]
  have marks : ((fm.writeContent false f candidate).mapTag f.tag fun g =>
      { g with modified := true }).setError f.tag none =
        (fm.writeContent false f candidate).mapRecords (Field.scanned f.tag) := by
    rw [Form.setError, Form.mapTag, Form.mapTag, Form.mapRecords_mapRecords]
    congr 1
    funext g
    by_cases same : g.tag = f.tag <;> simp [Field.scanned, same]
  rw [Form.applyExitTest_eq, content, passes, marks, ← Form.normalise_false]
  rfl

theorem Form.readCell_candidatePlaced (canonical : fm.storeLaw = true) {candidate : List Byte}
    (whole : candidate.length = f.length) (p : Nat) :
    readCell (fm.candidatePlaced f candidate).cells p =
      if f.covers p = true then
        { glyph := (((rewriteOf f candidate).getD candidate).take f.length).getD (p - f.start) 0
          style := f.normal }
      else readCell fm.cells p := by
  have canonical' : ((fm.writeContent false f candidate).mapRecords (Field.scanned f.tag)).storeLaw = true := by
    rw [Form.mapRecords_storeLaw]
    exact Form.writeContent_storeLaw canonical false f candidate
  have content : ((fm.writeContent false f candidate).mapRecords (Field.scanned f.tag)).content false f =
      candidate := by
    rw [Form.mapRecords_content, Form.content_writeContent canonical false whole.ge,
      List.take_of_length_le whole.le]
  rw [Form.candidatePlaced, Form.readCell_normalise canonical', content, Form.mapRecords_cells,
    Form.readCell_writeContent canonical whole.ge]
  split
  case isFalse => rfl
  case isTrue covered =>
    rw [getD_take_of_covers covered]
    cases rewriteOf f candidate <;> rfl

end

theorem length_candidateText {f : Field} {kept : List Byte} (fits : kept.length ≤ f.length) :
    (candidateText f kept).length = f.length := by
  rw [candidateText, List.length_append, List.length_replicate]
  omega

/-- Settles O52: the candidate as it stands before the tallies follow, and the advance. -/
theorem placementWrites : Obligations.PlacementWrites := by
  intro fm insertAtEntry r f kept lawful canonical active entry fits candidate passes entered content
  have whole : candidate.length = f.length := length_candidateText fits
  have canonicalEntered : entered.storeLaw = true := by
    change (if _ then _ else _ : Form).storeLaw = true
    split
    exacts [canonical, Form.moveTo_storeLaw canonical ..]
  have sameContent : content = ((rewriteOf f candidate).getD candidate).take f.length := by
    have short : candidate.take f.length = candidate := List.take_of_length_le whole.le
    cases cls : f.cls with
    | numeric n =>
      simp only [content, rewriteOf, cls]
      cases parseNumber n f.length candidate with
      | value v => cases f.opts.normalise <;> simp [short]
      | empty | format | range => simp [short]
    | alpha | code | none => simp [content, rewriteOf, cls, short]
  have sameEntered : (if fm.isCurrent f.tag then fm else fm.moveTo insertAtEntry true f.start) = entered := by
    simp only [Form.isCurrent_iff]
    rfl
  refine ⟨(entered.candidatePlaced f candidate).cells, fun p => ?_, ?_⟩
  · rw [Form.readCell_candidatePlaced canonicalEntered whole, sameContent]
  · have marked : fm.scanMarked insertAtEntry f kept =
        (entered.candidatePlaced f candidate).recomputeNaming [f.tag] := by
      rw [Form.scanMarked, sameEntered]
      exact Form.applyExitTest_candidate canonicalEntered whole passes
    rw [Form.placeScan_eq, marked, Form.candidatePlaced_eq]
    rfl

end Sys2Proof.Machine
end

section
/-! PROOFS. The tone line, and the directives of the deadline table. -/

namespace Sys2Proof.Machine

open Sys2Proof

/-! ## Tone requests (R170, R172) -/

section

variable {t : Tone} {p : Pattern}

theorem Pattern.begin_of_steps {first : ToneStep} {rest : List ToneStep} (steps : p.steps = first :: rest) :
    p.begin = some { pattern := p, steps := first :: rest, left := first.time } := by
  rw [Pattern.begin, steps]

theorem Tone.request_of_silent (silent : t.playing = none) :
    t.request p = { t with playing := p.begin } := by
  rw [Tone.request, silent]

variable {now : Playing} (playing : t.playing = some now)

include playing

theorem Tone.request_of_lower (lower : now.pattern.rank < p.rank) :
    t.request p = { t with playing := p.begin } := by
  rw [Tone.request, playing]
  exact if_pos lower

theorem Tone.request_click (held : p.rank ≤ now.pattern.rank) (click : p = .click) : t.request p = t := by
  rw [Tone.request, playing]
  exact (if_neg (Nat.not_lt.mpr held)).trans (if_pos click)

theorem Tone.request_waits (held : p.rank ≤ now.pattern.rank) (other : p ≠ .click) : t.request p =
    t.pending.elim { t with pending := some p } fun waiting =>
      if waiting.rank < p.rank then { t with pending := some p } else t := by
  rw [Tone.request, playing]
  refine (if_neg (Nat.not_lt.mpr held)).trans ((if_neg other).trans ?_)
  cases t.pending <;> rfl

end

/-! ## TONE (R171) -/

theorem pitchOf_of_le {b : Byte} (known : b.toNat ≤ 2) : pitchOf b =
    some (if b = 0 then .silence else if b = 1 then .low else .high) := by
  unfold pitchOf
  split_ifs with silence low high
  case neg =>
    simp only [BitVec.ofNat_eq_ofNat, byte_eq_iff, Nat.reduceMod] at silence low high
    omega
  all_goals rfl

theorem pitchOf_of_lt {b : Byte} (unknown : 2 < b.toNat) : pitchOf b = none := by
  unfold pitchOf
  split_ifs with silence low high
  case neg => rfl
  all_goals
    subst b
    contradiction

/-- The steps that the operands of a TONE describe (R171). -/
def toneStepsAsked (steps : List (Byte × Byte)) : List ToneStep :=
  steps.map fun (p : Byte × Byte) =>
    { pitch := if p.1 = (0 : Byte) then .silence else if p.1 = (1 : Byte) then .low else .high
      time := p.2.toNat * 2560 }

theorem toneStepsOf_of_ok {steps : List (Byte × Byte)} (ok : ∀ p ∈ steps, p.1.toNat ≤ 2 ∧ p.2 ≠ 0) :
    toneStepsOf steps = some (toneStepsAsked steps) := by
  have pitches : steps.map (fun p => pitchOf p.1) =
      (steps.map fun p => if p.1 = 0 then Pitch.silence else if p.1 = 1 then .low else .high).map some := by
    rw [List.map_map]
    exact List.map_congr_left fun p listed => pitchOf_of_le (ok p listed).1
  have lasting : ¬(steps.any fun p => decide (p.2 = 0)) = true := by
    rw [List.any_eq_true]
    rintro ⟨p, listed, zero⟩
    exact (ok p listed).2 (of_decide_eq_true zero)
  simp only [toneStepsOf, pitches, allSome_map_some, if_neg lasting]
  have paired := List.zip_map' (f := fun p : Byte × Byte => if p.1 = 0 then Pitch.silence else
    if p.1 = 1 then .low else .high) (g := id) (l := steps)
  rw [List.map_id] at paired
  rw [paired, List.map_map, toneStepsAsked]
  refine congrArg some (List.map_congr_left fun p _ => ?_)
  simp only [Function.comp_apply, id, Nat.mul_assoc, unitsPerMs]

theorem toneStepsOf_of_not {steps : List (Byte × Byte)} (bad : ∃ p ∈ steps, 2 < p.1.toNat ∨ p.2 = 0) :
    toneStepsOf steps = none := by
  obtain ⟨p, listed, bad⟩ := bad
  unfold toneStepsOf
  split
  case h_1 => rfl
  case h_2 pitches known =>
    refine if_pos (List.any_eq_true.mpr ⟨p, listed, decide_eq_true (bad.resolve_left fun unknown => ?_)⟩)
    rw [allSome_eq_none (List.mem_map.mpr ⟨p, listed, pitchOf_of_lt unknown⟩)] at known
    cases known

/-- A TONE is accepted exactly when its count, its pitches and its durations are in range (R171). -/
theorem bodyTone_of_ok {s : State} {steps : List (Byte × Byte)}
    (ok : 1 ≤ steps.length ∧ steps.length ≤ 8 ∧ ∀ p ∈ steps, p.1.toNat ≤ 2 ∧ p.2 ≠ 0) :
    bodyTone steps s = .ok (s.sound (.host (toneStepsAsked steps))) := by
  obtain ⟨some, few, each⟩ := ok
  have counted : ¬(steps = [] ∨ 8 < steps.length) := by
    rintro (rfl | many)
    · cases some
    · exact Nat.not_lt.mpr few many
  rw [bodyTone, if_neg counted, toneStepsOf_of_ok each]

theorem bodyTone_of_not {s : State} {steps : List (Byte × Byte)}
    (bad : ¬(1 ≤ steps.length ∧ steps.length ≤ 8 ∧ ∀ p ∈ steps, p.1.toNat ≤ 2 ∧ p.2 ≠ 0)) :
    bodyTone steps s = .error .range := by
  unfold bodyTone
  split
  case isTrue => rfl
  case isFalse counted =>
    rw [toneStepsOf_of_not]
    by_contra good
    refine bad ⟨?_, ?_, fun p listed => ?_⟩
    · exact List.length_pos_iff.mpr fun none => counted (.inl none)
    · exact Nat.le_of_not_lt fun many => counted (.inr many)
    · exact ⟨Nat.le_of_not_lt fun beyond => good ⟨p, listed, .inl beyond⟩,
        fun zero => good ⟨p, listed, .inr zero⟩⟩

/-! ## TONE_STEP_END (R171) -/

theorem exec_toneStepEnd {s : State} {p : Playing} (playing : s.tone.playing = some p) (ended : p.left = 0) :
    exec .toneStepEnd s = .next { s with tone := s.tone.stepEnded p } := by
  change execToneStepEnd s = _
  simp only [execToneStepEnd, playing, if_pos ended]

theorem Tone.stepEnded_more {t : Tone} {p : Playing} {done st : ToneStep} {rest : List ToneStep}
    (steps : p.steps = done :: st :: rest) : t.stepEnded p =
      { t with playing := some { p with steps := st :: rest, left := st.time } } := by
  rw [Tone.stepEnded, steps]
  rfl

theorem Tone.stepEnded_last {t : Tone} {p : Playing} {done : ToneStep} (steps : p.steps = [done]) :
    t.stepEnded p = t.pending.elim { t with playing := none } fun q =>
      { playing := q.begin, pending := none } := by
  rw [Tone.stepEnded, steps]
  cases t.pending <;> rfl

/-- Settles O38: patterns, requests, TONE, and the end of a step. -/
theorem toneLine : Obligations.ToneLine := by
  refine ⟨⟨rfl, rfl, rfl, rfl, rfl, rfl, fun steps => ⟨rfl, rfl⟩⟩, fun t p first rest steps => ?_,
    fun s steps left fetched => ⟨fun ok => exec_accepted rfl fetched (bodyTone_of_ok ok),
      fun bad => exec_refused rfl fetched (bodyTone_of_not bad)⟩,
    fun s p done playing ended => ?_⟩
  · dsimp only
    rw [← Pattern.begin_of_steps steps]
    refine ⟨Tone.request_of_silent, fun now playing => ⟨Tone.request_of_lower playing,
      Tone.request_click playing, fun held other => ⟨fun none => ?_, fun q waiting => ?_⟩⟩⟩
    · rw [Tone.request_waits playing held other, none, Option.elim_none]
    · rw [Tone.request_waits playing held other, waiting, Option.elim_some]
  · rw [exec_toneStepEnd playing ended]
    refine ⟨fun st rest steps => by rw [Tone.stepEnded_more steps], fun steps none => ?_,
      fun q st rest steps waiting begins => ?_⟩
    · rw [Tone.stepEnded_last steps, none, Option.elim_none]
    · rw [Tone.stepEnded_last steps, waiting, Option.elim_some, Pattern.begin_of_steps begins]

/-! ## A deadline that fires (R168, R169) -/

/-- The alert mark that a deadline which fires sets on the record of its tag (R35, R169). -/
def Deadline.marks (d : Deadline) (i : Nat) (f : Field) : Field :=
  if d.tag ≠ 0 ∧ f.tag = d.tag then { f with alert := some { style := d.style, index := i } } else f

/-- The state with a deadline PASSED, its tone requested and its mark set, before its notice. -/
def State.deadlinePassed (s : State) (i : Nat) : State :=
  { s with
    clock := s.clock.setDeadline i { s.clock.deadline i with state := .passed }
    tone := s.tone.request .deadline
    form := s.form.mapRecords ((s.clock.deadline i).marks i) }

theorem State.fireDeadline_eq (s : State) (i : Nat) : s.fireDeadline i =
    if (s.clock.deadline i).notify then (s.deadlinePassed i).offer (.deadline i)
    else s.deadlinePassed i := by
  have marked : (if (s.clock.deadline i).tag = 0 then s.form
      else s.form.mapTag (s.clock.deadline i).tag fun f =>
        { f with alert := some { style := (s.clock.deadline i).style, index := i } }) =
        s.form.mapRecords ((s.clock.deadline i).marks i) := by
    split
    case isTrue none =>
      exact (Form.mapRecords_id _ fun f => if_neg fun held => held.1 none).symm
    case isFalse held =>
      rw [Form.mapTag]
      congr 1
      funext f
      simp only [Deadline.marks, ne_eq, held, not_false_iff, true_and]
  rw [State.deadlinePassed, ← marked, State.fireDeadline]
  by_cases none : (s.clock.deadline i).tag = 0
  all_goals
    simp only [none, if_true, if_false]
    rfl

theorem Clock.deadline_setDeadline_same (c : Clock) {i : Nat} (inTable : i < c.deadlines.length)
    (d : Deadline) : (c.setDeadline i d).deadline i = d := by
  rw [Clock.deadline, Clock.setDeadline, List.getD_eq_getElem?_getD, List.getElem?_set_self inTable]
  rfl

theorem Clock.deadline_setDeadline_other (c : Clock) {i j : Nat} (other : i ≠ j) (d : Deadline) :
    (c.setDeadline i d).deadline j = c.deadline j := by
  rw [Clock.deadline, Clock.setDeadline, List.getD_eq_getElem?_getD, List.getElem?_set_ne other]
  rfl

/-! ## DEADLINE and DEADLINE OFF (R167) -/

section

variable {s : State} {index flags : Byte} {day : Option Half} {second : Triple} {tag style : Byte}

/-- The entry that a DEADLINE loads. -/
def deadlineAsked (flags : Byte) (day : Option Half) (second : Triple) (tag style : Byte) : Deadline :=
  { state := .armed, day := day.map (·.toNat), second := second.toNat, tag := tag.toNat,
    style := style.toNat, notify := flags.getLsbD 1 }

/-- The checks of a DEADLINE in their order. -/
theorem bodyDeadline_eq : bodyDeadline index flags day second tag style s =
    if 3 < index.toNat ∨ 86400 ≤ second.toNat then .error .range
    else if 250 < tag.toNat then .error .tag
    else if 15 < style.toNat then .error .range
    else .ok (State.checkDeadline
      { s with clock := s.clock.setDeadline index.toNat (deadlineAsked flags day second tag style) }
      index.toNat) := by
  unfold bodyDeadline
  by_cases beyond : 3 < index.toNat
  case pos => rw [if_pos beyond, if_pos (.inl beyond)]
  by_cases late : 86400 ≤ second.toNat
  case pos => rw [if_neg beyond, if_pos (show secondSpan ≤ _ from late), if_pos (.inr late)]
  rw [if_neg beyond, if_neg (show ¬secondSpan ≤ _ from late), if_neg (not_or.mpr ⟨beyond, late⟩)]
  rfl

theorem deadlineAsked_isDue {c : Clock} :
    c.isDue (deadlineAsked flags day second tag style) = true ↔
      (match day with
       | some day => day.toNat < c.day ∨ (day.toNat = c.day ∧ second.toNat ≤ c.second)
       | none => second.toNat ≤ c.second) := by
  cases day <;> simp [Clock.isDue, deadlineAsked]

end

theorem Field.alertOff_eq (index : Nat) (f : Field) : f.alertOff index =
    if f.alert.any fun a => a.index == index then { f with alert := none } else f := by
  unfold Field.alertOff
  cases f.alert <;> simp

/-- Settles O35: the checks, the entry loaded, and what fires at once. -/
theorem deadlineLoads : Obligations.DeadlineLoads := by
  refine ⟨fun s index flags day second tag style left fetched => ?_, fun s index left fetched =>
    ⟨fun beyond => exec_refused rfl fetched (if_pos beyond), fun within => exec_accepted rfl fetched ?_⟩⟩
  · intro run d entry due
    refine ⟨fun bad => exec_refused rfl fetched (bodyDeadline_eq.trans (if_pos bad)),
      fun within early unheld => exec_refused rfl fetched (bodyDeadline_eq.trans ?_),
      fun within early held bad => exec_refused rfl fetched (bodyDeadline_eq.trans ?_),
      fun within early held good sized => ?_⟩
    · rw [if_neg (by omega), if_pos unheld]
    · rw [if_neg (by omega), if_neg (Nat.not_lt.mpr held), if_pos bad]
    · have accepted : run = .next (State.reachOffset (State.checkDeadline
          { s with clock := s.clock.setDeadline index.toNat d } index.toNat) left) := by
        refine exec_accepted rfl fetched (bodyDeadline_eq.trans ?_)
        rw [if_neg (by omega), if_neg (Nat.not_lt.mpr held), if_neg (Nat.not_lt.mpr good)]
        rfl
      have loaded : (s.clock.setDeadline index.toNat d).deadline index.toNat = d :=
        s.clock.deadline_setDeadline_same (by omega) d
      have isDue : (s.clock.setDeadline index.toNat d).isDue d = true ↔ due := deadlineAsked_isDue
      rw [accepted, State.checkDeadline, loaded]
      refine ⟨fun later => ?_, fun now => ?_⟩
      · rw [if_neg (mt isDue.mp later)]
        rfl
      · intro fired
        have passed : State.deadlinePassed
            { s with clock := s.clock.setDeadline index.toNat d } index.toNat = fired := by
          have clock : (s.clock.setDeadline index.toNat d).setDeadline index.toNat { d with state := .passed } =
              entry { d with state := .passed } :=
            congrArg (fun l => { s.clock with deadlines := l }) (List.set_set ..)
          have marks : d.marks index.toNat = fun f => if tag ≠ 0 ∧ f.tag = tag.toNat then
              { f with alert := some { style := style.toNat, index := index.toNat } } else f := by
            funext f
            simp only [Deadline.marks, d, ne_eq, byte_eq_zero_iff tag]
          rw [State.deadlinePassed, loaded, clock, marks]
        rw [if_pos (isDue.mpr now), State.fireDeadline_eq, passed, loaded]
  · rw [bodyDeadlineOff, if_neg (Nat.not_lt.mpr within), funext (Field.alertOff_eq index.toNat)]
    rfl

end Sys2Proof.Machine
end

section
/-! PROOFS. A check of the deadline table: which entries fire, and what all of them together leave. -/

namespace Sys2Proof.Machine

open Sys2Proof

/-! ## The line as notices are offered (R177) -/

/-- The line after a notice has been offered, by whether the transmitter runs. -/
def Line.offered (l : Line) (runs : Bool) (n : Notice) : Line :=
  if runs then (l.queueNotice n).choose else l.queueNotice n

theorem State.offer_offered (s : State) (n : Notice) :
    s.offer n = { s with line := s.line.offered s.started n } := by
  rw [State.offer, State.transmit, Line.offered]
  change (if s.started then _ else _) = _
  cases s.started <;> rfl

theorem State.noticed_eq (s : State) (fired : List Nat) : s.noticed fired =
    (fired.filter fun i => (s.clock.deadline i).notify).foldl
      (fun l i => l.offered s.started (.deadline i)) s.line := by
  unfold State.noticed
  generalize fired.filter (fun i => (s.clock.deadline i).notify) = l
  induction l generalizing s with
  | nil => rfl
  | cons i rest ih =>
    rw [List.foldl_cons, List.foldl_cons, ih, State.offer_offered]
    rfl

/-- The line changed in its notice queue and its transmitter alone. -/
def Line.SendsOnly (l m : Line) : Prop := ∃ notices sending, m = { l with notices := notices, sending := sending }

theorem Line.SendsOnly.trans {l m k : Line} (first : l.SendsOnly m) (second : m.SendsOnly k) :
    l.SendsOnly k := by
  obtain ⟨_, _, rfl⟩ := first
  obtain ⟨notices, sending, rfl⟩ := second
  exact ⟨notices, sending, rfl⟩

theorem Line.queueNotice_sendsOnly (l : Line) (n : Notice) : l.SendsOnly (l.queueNotice n) := by
  unfold Line.queueNotice
  split
  exacts [⟨_, _, rfl⟩, ⟨_, _, rfl⟩]

theorem Line.choose_sendsOnly (l : Line) : l.SendsOnly l.choose := by
  unfold Line.choose
  split
  · exact ⟨_, _, rfl⟩
  · split
    · exact ⟨_, _, rfl⟩
    · split
      exacts [⟨_, _, rfl⟩, ⟨_, _, rfl⟩]

theorem State.noticed_sendsOnly (s : State) (fired : List Nat) : s.line.SendsOnly (s.noticed fired) := by
  rw [State.noticed_eq]
  refine List.foldlRecOn (motive := s.line.SendsOnly) _ _ ⟨_, _, rfl⟩ fun l sends i _ => sends.trans ?_
  unfold Line.offered
  split
  exacts [(l.queueNotice_sendsOnly _).trans (Line.choose_sendsOnly _), l.queueNotice_sendsOnly _]

theorem State.noticed_congr (s t : State) (line : t.line = s.line) (start : t.start = s.start)
    (notify : ∀ i, (t.clock.deadline i).notify = (s.clock.deadline i).notify) (fired : List Nat) :
    t.noticed fired = s.noticed fired := by
  rw [State.noticed_eq, State.noticed_eq, line, State.started, State.started, start]
  simp only [notify]

/-! ## Entries that fire together (R169) -/

/-- The clock with some entries PASSED. -/
def Clock.passed (c : Clock) (fired : List Nat) : Clock :=
  fired.foldl (fun d i => d.setDeadline i { d.deadline i with state := .passed }) c

/-- The state after some entries have fired, in order. -/
def State.afterFiring (s : State) (fired : List Nat) : State :=
  { s with
    clock := s.clock.passed fired
    tone := s.tone.warned fired
    line := s.noticed fired
    form := s.form.mapRecords (s.clock.alerted fired) }

theorem State.fireDeadline_afterFiring (s : State) (i : Nat) : s.fireDeadline i = s.afterFiring [i] := by
  rw [State.fireDeadline_eq, State.afterFiring, State.noticed_eq]
  cases notify : (s.clock.deadline i).notify with
  | false =>
    rw [List.filter_singleton, notify]
    rfl
  | true =>
    rw [List.filter_singleton, notify, if_pos rfl, State.offer_offered]
    rfl

/-- The entries have the same day, second, tag, style and notice, whatever their states. -/
def Clock.SamePlan (c d : Clock) : Prop := ∀ i, ∃ st, d.deadline i = { c.deadline i with state := st }

theorem Clock.samePlan_refl (c : Clock) : c.SamePlan c := fun i => ⟨(c.deadline i).state, rfl⟩

theorem Clock.setDeadline_deadline (c : Clock) (i j : Nat) (d : Deadline) : (c.setDeadline i d).deadline j =
    if i = j ∧ j < c.deadlines.length then d else c.deadline j := by
  by_cases same : i = j
  · subst same
    by_cases inTable : i < c.deadlines.length
    · rw [if_pos ⟨rfl, inTable⟩, c.deadline_setDeadline_same inTable]
    · rw [if_neg fun both => inTable both.2, Clock.deadline, Clock.setDeadline,
        List.set_eq_of_length_le (Nat.le_of_not_lt inTable)]
      rfl
  · rw [if_neg fun both => same both.1, c.deadline_setDeadline_other same]

theorem Clock.samePlan_setDeadline {c d : Clock} (same : c.SamePlan d) (i : Nat) (st : DeadlineState) :
    c.SamePlan (d.setDeadline i { d.deadline i with state := st }) := by
  intro j
  rw [Clock.setDeadline_deadline]
  split
  case isFalse => exact same j
  case isTrue here =>
    obtain ⟨rfl, _⟩ := here
    obtain ⟨st', eq⟩ := same i
    exact ⟨st, by rw [eq]⟩

theorem Clock.alerted_congr {c d : Clock} (same : c.SamePlan d) (fired : List Nat) (f : Field) :
    d.alerted fired f = c.alerted fired f := by
  have tag (i : Nat) : (d.deadline i).tag = (c.deadline i).tag := by
    obtain ⟨st, eq⟩ := same i
    rw [eq]
  have style (i : Nat) : (d.deadline i).style = (c.deadline i).style := by
    obtain ⟨st, eq⟩ := same i
    rw [eq]
  simp only [Clock.alerted, tag, style]

theorem Clock.notify_congr {c d : Clock} (same : c.SamePlan d) (i : Nat) :
    (d.deadline i).notify = (c.deadline i).notify := by
  obtain ⟨st, eq⟩ := same i
  rw [eq]

theorem State.afterFiring_nil (s : State) : s.afterFiring [] = s := by
  exact congrArg (fun fm => { s with form := fm }) (Form.mapRecords_id s.form fun f => rfl)

theorem State.afterFiring_cons (s : State) (i : Nat) (rest : List Nat) :
    (s.afterFiring [i]).afterFiring rest = s.afterFiring (i :: rest) := by
  have plan : s.clock.SamePlan (s.clock.passed [i]) :=
    Clock.samePlan_setDeadline s.clock.samePlan_refl i .passed
  have alerted : (s.clock.passed [i]).alerted rest ∘ s.clock.alerted [i] = s.clock.alerted (i :: rest) :=
    funext fun f => Clock.alerted_congr plan rest _
  have noticed : (s.afterFiring [i]).noticed rest = s.noticed (i :: rest) := by
    rw [State.noticed_eq, State.noticed_eq]
    simp only [State.afterFiring, Clock.notify_congr plan, List.filter_cons]
    rw [State.noticed_eq]
    cases notify : (s.clock.deadline i).notify <;> simp [notify] <;> rfl
  rw [State.afterFiring, noticed, State.afterFiring]
  dsimp only
  rw [Form.mapRecords_mapRecords, alerted]
  rfl

/-! ## The entries examined in order (R168) -/

/-- The entry is due by its state and desk time. -/
def Clock.isDueAt (c : Clock) (i : Nat) : Bool := c.isDue (c.deadline i)

theorem State.foldl_checkDeadline (s : State) {l : List Nat} (once : l.Nodup) :
    l.foldl State.checkDeadline s = s.afterFiring (l.filter s.clock.isDueAt) := by
  induction l generalizing s with
  | nil => exact s.afterFiring_nil.symm
  | cons i rest ih =>
    obtain ⟨fresh, once⟩ := List.nodup_cons.mp once
    rw [List.foldl_cons, List.filter_cons, State.checkDeadline]
    change List.foldl _ (if s.clock.isDueAt i then _ else _) rest = _
    cases due : s.clock.isDueAt i with
    | false => rw [if_neg Bool.false_ne_true, if_neg Bool.false_ne_true, ih _ once]
    | true =>
      rw [if_pos rfl, if_pos rfl, State.fireDeadline_afterFiring, ih _ once,
        State.afterFiring_cons]
      congr 2
      refine List.filter_congr fun j listed => ?_
      have other : i ≠ j := fun same => fresh (same ▸ listed)
      have deadline : (s.clock.passed [i]).deadline j = s.clock.deadline j :=
        s.clock.deadline_setDeadline_other other _
      exact congrArg s.clock.isDue deadline

theorem Clock.passed_deadline (c : Clock) (fired : List Nat) (j : Nat) : (c.passed fired).deadline j =
    if j ∈ fired ∧ j < c.deadlines.length then { c.deadline j with state := .passed } else c.deadline j := by
  induction fired generalizing c with
  | nil => simp [Clock.passed]
  | cons i rest ih =>
    have later : (c.passed (i :: rest)) = (c.setDeadline i { c.deadline i with state := .passed }).passed rest := rfl
    have length : (c.setDeadline i { c.deadline i with state := .passed }).deadlines.length =
        c.deadlines.length := List.length_set
    rw [later, ih, length, Clock.setDeadline_deadline]
    by_cases same : i = j
    · subst same
      by_cases inTable : i < c.deadlines.length <;> simp [inTable]
    · by_cases listed : j ∈ rest <;> simp [same, Ne.symm same, listed]

theorem Clock.passed_eq (c : Clock) (fired : List Nat) :
    c.passed fired = { c with deadlines := (c.passed fired).deadlines } ∧
      (c.passed fired).deadlines.length = c.deadlines.length := by
  induction fired generalizing c with
  | nil => exact ⟨rfl, rfl⟩
  | cons i rest ih =>
    obtain ⟨eq, length⟩ := ih (c.setDeadline i { c.deadline i with state := .passed })
    exact ⟨eq, length.trans List.length_set⟩

/-! ## The check of the table (R168) -/

/-- An entry as a change of day re-arms it (R168 step 1). -/
def Deadline.rearmed (d : Deadline) : Deadline :=
  if d.state = .passed ∧ d.day = none then { d with state := .armed } else d

theorem Clock.rearm_deadline (c : Clock) (i : Nat) : c.rearm.deadline i = (c.deadline i).rearmed :=
  List.getD_map c.deadlines defaultDeadline Deadline.rearmed

/-- The clock as a check of the table takes it up (R168 step 1). -/
def Clock.armedFor (c : Clock) (dayChanged : Bool) : Clock := if dayChanged then c.rearm else c

theorem Clock.armedFor_deadline (c : Clock) (dayChanged : Bool) (i : Nat) : (c.armedFor dayChanged).deadline i =
    { c.deadline i with state :=
        if (c.deadline i).ready dayChanged then .armed else (c.deadline i).state } := by
  cases dayChanged with
  | false =>
    have armed : (if (c.deadline i).ready false then .armed else (c.deadline i).state) =
        (c.deadline i).state := by
      simp only [Deadline.ready, Bool.false_and, Bool.or_false, decide_eq_true_iff]
      split
      case isTrue armed => exact armed.symm
      case isFalse => rfl
    rw [armed]
    rfl
  | true =>
    rw [Clock.armedFor, if_pos rfl, Clock.rearm_deadline]
    generalize c.deadline i = d
    obtain ⟨state, day, second, tag, style, notify⟩ := d
    cases state <;> cases day <;> rfl

theorem Clock.armedFor_eq (c : Clock) (dayChanged : Bool) :
    c.armedFor dayChanged = { c with deadlines := (c.armedFor dayChanged).deadlines } := by
  cases dayChanged <;> rfl

theorem Clock.isDueAt_armedFor (c : Clock) (dayChanged : Bool) (i : Nat) :
    (c.armedFor dayChanged).isDueAt i = (c.deadline i).fires dayChanged c.day c.second := by
  have armed : decide ((if (c.deadline i).ready dayChanged then DeadlineState.armed
      else (c.deadline i).state) = .armed) = (c.deadline i).ready dayChanged := by
    cases ready : (c.deadline i).ready dayChanged with
    | true => rfl
    | false =>
      rw [if_neg Bool.false_ne_true, decide_eq_false_iff_not]
      intro armed
      rw [Deadline.ready, decide_eq_true armed] at ready
      cases ready
  rw [Clock.isDueAt, Clock.armedFor_deadline, Clock.armedFor_eq, Clock.isDue, armed]
  rfl

/-- What a check of the deadline table leaves (R168, R169). -/
theorem State.checkDeadlines_eq (s : State) (dayChanged : Bool) (sized : s.clock.deadlines.length = 4) :
    ∃ deadlines : List Deadline,
      s.checkDeadlines dayChanged =
        { s with
          clock := { s.clock with deadlines := deadlines }
          tone := s.tone.warned (s.clock.firing dayChanged s.clock.day s.clock.second)
          line := s.noticed (s.clock.firing dayChanged s.clock.day s.clock.second)
          form := s.form.mapRecords
            (s.clock.alerted (s.clock.firing dayChanged s.clock.day s.clock.second)) } ∧
      deadlines.length = 4 ∧
      ∀ i < 4, Clock.deadline { s.clock with deadlines := deadlines } i =
        { s.clock.deadline i with
          state := (s.clock.deadline i).checkedState dayChanged s.clock.day s.clock.second } := by
  have plan : s.clock.SamePlan (s.clock.armedFor dayChanged) := fun i =>
    ⟨_, s.clock.armedFor_deadline dayChanged i⟩
  have sized' : (s.clock.armedFor dayChanged).deadlines.length = 4 := by
    cases dayChanged with
    | false => exact sized
    | true => exact List.length_map _ |>.trans sized
  have firing : (List.range 4).filter (s.clock.armedFor dayChanged).isDueAt =
      s.clock.firing dayChanged s.clock.day s.clock.second :=
    List.filter_congr fun i _ => s.clock.isDueAt_armedFor dayChanged i
  have checked : s.checkDeadlines dayChanged =
      State.afterFiring { s with clock := s.clock.armedFor dayChanged }
        (s.clock.firing dayChanged s.clock.day s.clock.second) := by
    rw [← firing, ← State.foldl_checkDeadline _ List.nodup_range]
    cases dayChanged <;> rfl
  generalize s.clock.firing dayChanged s.clock.day s.clock.second = fired at firing checked
  have clock : (s.clock.armedFor dayChanged).passed fired =
      { s.clock with deadlines := ((s.clock.armedFor dayChanged).passed fired).deadlines } :=
    ((s.clock.armedFor dayChanged).passed_eq fired).1.trans (by cases dayChanged <;> rfl)
  refine ⟨((s.clock.armedFor dayChanged).passed fired).deadlines, ?_,
    ((s.clock.armedFor dayChanged).passed_eq fired).2.trans sized', fun i inTable => ?_⟩
  · have noticed : State.noticed { s with clock := s.clock.armedFor dayChanged } fired = s.noticed fired :=
      State.noticed_congr s { s with clock := s.clock.armedFor dayChanged } rfl rfl
        (Clock.notify_congr plan) fired
    rw [checked, State.afterFiring, noticed, funext (Clock.alerted_congr plan fired), ← clock]
  · rw [← clock, Clock.passed_deadline, sized', Clock.armedFor_deadline]
    have fires : i ∈ fired ↔ (s.clock.deadline i).fires dayChanged s.clock.day s.clock.second = true := by
      rw [← firing, List.mem_filter, List.mem_range, and_iff_right inTable, Clock.isDueAt_armedFor]
    simp only [inTable, and_true, fires, Deadline.checkedState]
    split <;> rfl

end Sys2Proof.Machine
end

section
/-! PROOFS. The clock fields written, CLOCK, and the base tick. -/

namespace Sys2Proof.Machine

open Sys2Proof

/-! ## Clock fields written (R165) -/

/-- One record's clock field written when it is due. -/
def Form.clockWritten (second : Nat) (due : Nat → Bool) (fm : Form) (r : Field × Bool) : Form :=
  if r.1.kind = .clock && due r.1.length then fm.writeClock second r.2 r.1 else fm

/-- Every record with its place, active or suspended. -/
def Form.placed (fm : Form) : List (Field × Bool) :=
  fm.active.map (·, false) ++ fm.suspended.map (·, true)

theorem Form.writeClocks_eq (fm : Form) (second : Nat) (due : Nat → Bool) :
    fm.writeClocks second due = fm.placed.foldl (Form.clockWritten second due) fm := by
  rw [Form.placed, List.foldl_append, List.foldl_map, List.foldl_map]
  rfl

theorem Form.mem_placed {fm : Form} {f : Field} {susp : Bool} :
    (f, susp) ∈ fm.placed ↔ f ∈ fm.records susp := by
  cases susp <;> simp [Form.placed]

section

variable {fm : Form} {second : Nat} {due : Nat → Bool}

/-- The glyphs of a clock's text are no nulls. -/
theorem digitGlyph_ne_zero {n : Nat} (digit : n < 10) : digitGlyph n ≠ 0 := by
  intro null
  have := congrArg BitVec.toNat null
  rw [digitGlyph, BitVec.toNat_ofNat, Nat.mod_eq_of_lt (by omega)] at this
  simp at this

theorem twoDigits_ne_zero {n : Nat} (small : n < 100) {g : Byte} (listed : g ∈ twoDigits n) : g ≠ 0 := by
  simp only [twoDigits, List.mem_cons, List.not_mem_nil, or_false] at listed
  obtain rfl | rfl := listed
  all_goals exact digitGlyph_ne_zero (by omega)

theorem clockText_ne_zero {length second : Nat} (inDay : second < 86400) {g : Byte}
    (listed : g ∈ clockText length second) : g ≠ 0 := by
  have colon : colonGlyph ≠ 0 := by decide
  have hours (h : g ∈ twoDigits (second / 3600)) : g ≠ 0 := twoDigits_ne_zero (by omega) h
  have minutes (h : g ∈ twoDigits (second / 60 % 60)) : g ≠ 0 := twoDigits_ne_zero (by omega) h
  have seconds (h : g ∈ twoDigits (second % 60)) : g ≠ 0 := twoDigits_ne_zero (by omega) h
  unfold clockText at listed
  dsimp only at listed
  split at listed
  all_goals simp only [List.mem_append, List.mem_singleton] at listed
  · obtain (h | rfl) | h := listed
    exacts [hours h, colon, minutes h]
  · obtain (((h | rfl) | h) | rfl) | h := listed
    exacts [hours h, colon, minutes h, colon, seconds h]

theorem Form.clockWritten_window (fm : Form) (r : Field × Bool) :
    (fm.clockWritten second due r).window = fm.window := by
  unfold Form.clockWritten
  split
  exacts [Form.writeContent_window .., rfl]

/-- What no write of a content changes, no write of clock fields changes. -/
theorem Form.writeClocks_keeps {α : Type} (part : Form → α)
    (each : ∀ (fm : Form) (susp : Bool) (f : Field) (l : List Byte), part (fm.writeContent susp f l) = part fm)
    (fm : Form) (second : Nat) (due : Nat → Bool) : part (fm.writeClocks second due) = part fm := by
  rw [Form.writeClocks_eq]
  refine List.foldlRecOn (motive := fun g : Form => part g = part fm) _ _ rfl fun g same r _ => ?_
  unfold Form.clockWritten
  split
  exacts [(each ..).trans same, same]

theorem Form.writeClocks_window (fm : Form) (second : Nat) (due : Nat → Bool) :
    (fm.writeClocks second due).window = fm.window :=
  Form.writeClocks_keeps (·.window) Form.writeContent_window fm second due

/-- The clock field of this record is due and has the cell. -/
def Form.ticksAt (fm : Form) (due : Nat → Bool) (r : Field × Bool) (saved : Bool) (q : Nat) : Prop :=
  r.1.kind = .clock ∧ due r.1.length = true ∧ r.1.covers q = true ∧ saved = fm.inSaved r.2 q

theorem Form.ticksAt_congr {fm' : Form} (window : fm'.window = fm.window) (r : Field × Bool) (saved : Bool)
    (q : Nat) : fm'.ticksAt due r saved q ↔ fm.ticksAt due r saved q := by
  rw [Form.ticksAt, Form.ticksAt, Form.inSaved_congr window]

/-- One record at most ticks at a cell (R21). -/
theorem Form.Lawful.ticksAt_unique (law : fm.Lawful) {r r' : Field × Bool} (mem : r ∈ fm.placed)
    (mem' : r' ∈ fm.placed) {saved : Bool} {q : Nat} (inside : fm.ticksAt due r saved q)
    (inside' : fm.ticksAt due r' saved q) : r' = r := by
  obtain ⟨f, susp⟩ := r
  obtain ⟨f', susp'⟩ := r'
  rw [Form.mem_placed] at mem mem'
  obtain ⟨_, _, covered, place⟩ := inside
  obtain ⟨_, _, covered', place'⟩ := inside'
  by_cases same : f'.tag = f.tag
  · have first := law.record_iff.mpr ⟨mem, rfl⟩
    have second := law.record_iff.mpr ⟨mem', same⟩
    cases first.symm.trans second
    rfl
  · exact absurd (place'.symm.trans place) (law.inSaved_ne mem' mem same covered' covered)

variable (inDay : second < 86400)

include inDay

/-- A write of a content changes cells of its field alone. -/
theorem Form.writeClock_storedCell_of_not {susp : Bool} {f : Field} {saved : Bool} {q : Nat}
    (outside : f.covers q = true → saved ≠ fm.inSaved susp q) :
    (fm.writeClock second susp f).storedCell saved q = fm.storedCell saved q := by
  rw [Form.writeClock, Form.writeContent,
    Form.writeFrom_storedCell_of (.inr fun g listed => clockText_ne_zero inDay listed), if_neg]
  rintro ⟨inside, place⟩
  refine outside ?_ place
  rw [Field.covers_iff]
  omega

theorem Form.clockWritten_storedCell_of_not {r : Field × Bool} {saved : Bool}
    {q : Nat} (outside : ¬fm.ticksAt due r saved q) :
    (fm.clockWritten second due r).storedCell saved q = fm.storedCell saved q := by
  unfold Form.clockWritten
  split
  case isFalse => rfl
  case isTrue written =>
    obtain ⟨isClock, isDue⟩ := Bool.and_eq_true_iff.mp written
    exact Form.writeClock_storedCell_of_not inDay fun covered place =>
      outside ⟨of_decide_eq_true isClock, isDue, covered, place⟩

theorem Form.clockWritten_storedCell {r : Field × Bool} {saved : Bool}
    {q : Nat} (inside : fm.ticksAt due r saved q) (known : r.1.length = 5 ∨ r.1.length = 8) :
    (fm.clockWritten second due r).storedCell saved q =
      { glyph := (clockText r.1.length second).getD (q - r.1.start) 0, style := r.1.normal } := by
  obtain ⟨isClock, isDue, covered, place⟩ := inside
  have written : (decide (r.1.kind = .clock) && due r.1.length) = true := by
    rw [isDue, decide_eq_true isClock]
    rfl
  rw [Form.clockWritten, if_pos written, Form.writeClock,
    Form.writeContent_storedCell_of (.inr fun g listed => clockText_ne_zero inDay listed) _
      (length_clockText known second).ge, if_pos ⟨covered, place⟩]

theorem Form.foldl_clockWritten_of_not {l : List (Field × Bool)}
    {saved : Bool} {q : Nat} (outside : ∀ r ∈ l, ¬fm.ticksAt due r saved q) :
    (l.foldl (Form.clockWritten second due) fm).storedCell saved q = fm.storedCell saved q := by
  induction l generalizing fm with
  | nil => rfl
  | cons r rest ih =>
    rw [List.foldl_cons, ih fun r' listed => ?_,
      Form.clockWritten_storedCell_of_not inDay (outside r (List.mem_cons_self ..))]
    rw [Form.ticksAt_congr (fm.clockWritten_window r)]
    exact outside r' (List.mem_cons_of_mem r listed)

theorem Form.foldl_clockWritten {l : List (Field × Bool)}
    {saved : Bool} {q : Nat} {r : Field × Bool} (listed : r ∈ l) (inside : fm.ticksAt due r saved q)
    (known : r.1.length = 5 ∨ r.1.length = 8) (alone : ∀ r' ∈ l, fm.ticksAt due r' saved q → r' = r) :
    (l.foldl (Form.clockWritten second due) fm).storedCell saved q =
      { glyph := (clockText r.1.length second).getD (q - r.1.start) 0, style := r.1.normal } := by
  induction l generalizing fm with
  | nil => cases listed
  | cons h rest ih =>
    have window := fm.clockWritten_window (second := second) (due := due) h
    rw [List.foldl_cons]
    by_cases again : r ∈ rest
    · refine ih again ((Form.ticksAt_congr window ..).mpr inside) fun r' listed' inside' => ?_
      exact alone r' (List.mem_cons_of_mem h listed') ((Form.ticksAt_congr window ..).mp inside')
    · cases (List.mem_cons.mp listed).resolve_right again
      rw [Form.foldl_clockWritten_of_not inDay fun r' listed' inside' => ?_,
        Form.clockWritten_storedCell inDay inside known]
      have same := alone r' (List.mem_cons_of_mem r listed') ((Form.ticksAt_congr window ..).mp inside')
      exact again (same ▸ listed')

/-- The cells of a clock field that is due show its text (R165). -/
theorem Form.writeClocks_cellOf (law : fm.Lawful) {f : Field} {susp : Bool} (mem : (f, susp) ∈ fm.placed)
    (isClock : f.kind = .clock) (isDue : due f.length = true) (known : f.length = 5 ∨ f.length = 8) {q : Nat}
    (covered : f.covers q = true) : (fm.writeClocks second due).cellOf susp q =
      { glyph := (clockText f.length second).getD (q - f.start) 0, style := f.normal } := by
  have window : (fm.writeClocks second due).window = fm.window := fm.writeClocks_window second due
  have inside : fm.ticksAt due (f, susp) (fm.inSaved susp q) q := ⟨isClock, isDue, covered, rfl⟩
  rw [Form.cellOf_eq_storedCell, Form.inSaved_congr window, Form.writeClocks_eq]
  exact Form.foldl_clockWritten inDay mem inside known fun r' mem' inside' =>
    law.ticksAt_unique mem mem' inside inside'

/-- A cell that no clock field which is due covers stands. -/
theorem Form.writeClocks_storedCell {saved : Bool} {q : Nat}
    (outside : ∀ r ∈ fm.placed, ¬fm.ticksAt due r saved q) :
    (fm.writeClocks second due).storedCell saved q = fm.storedCell saved q := by
  rw [Form.writeClocks_eq]
  exact Form.foldl_clockWritten_of_not inDay outside

/-- The screen cells that no clock field covers stand. -/
theorem Form.writeClocks_cells {p : Nat} (active : ∀ f ∈ fm.active, f.kind = .clock → f.covers p = false)
    (suspended : ∀ f ∈ fm.suspended, f.kind = .clock → f.covers p = false ∨ fm.inWindow p = true) :
    readCell (fm.writeClocks second due).cells p = readCell fm.cells p := by
  refine Form.writeClocks_storedCell inDay (saved := false) fun ⟨f, susp⟩ mem ⟨isClock, _, covered, place⟩ => ?_
  rw [Form.mem_placed] at mem
  cases susp with
  | false =>
    rw [active f mem isClock] at covered
    cases covered
  | true =>
    obtain uncovered | inside := suspended f mem isClock
    · rw [uncovered] at covered
      cases covered
    · rw [Form.inSaved_true, inside] at place
      cases place

theorem Form.writeClocks_savedCell {p : Nat}
    (suspended : ∀ f ∈ fm.suspended, f.kind = .clock → f.covers p = false) :
    (fm.writeClocks second due).savedCell p = fm.savedCell p := by
  refine Form.savedCell_congr (fm.writeClocks_window second due)
    (Form.writeClocks_storedCell inDay fun ⟨f, susp⟩ mem ⟨isClock, _, covered, place⟩ => ?_)
  rw [Form.mem_placed] at mem
  cases susp with
  | false => cases place
  | true =>
    rw [suspended f mem isClock] at covered
    cases covered

/-- A clock field that is due holds its text, in its normal style (R165). -/
theorem Form.writeClocks_content (law : fm.Lawful) {f : Field} {susp : Bool} (mem : (f, susp) ∈ fm.placed)
    (isClock : f.kind = .clock) (isDue : due f.length = true) (known : f.length = 5 ∨ f.length = 8) :
    (fm.writeClocks second due).content susp f = clockText f.length second := by
  refine Form.content_eq_of_getD (length_clockText known second) fun p covered => ?_
  rw [Form.writeClocks_cellOf inDay law mem isClock isDue known covered]

end

/-! ## CLOCK (R163) -/

theorem bodyClock_of_bad {s : State} {day : Half} {second : Triple} {ms : Half}
    (bad : 86400 ≤ second.toNat ∨ 1000 ≤ ms.toNat) : bodyClock day second ms s = .error .range := by
  unfold bodyClock
  split
  case isTrue => rfl
  case isFalse early => exact if_pos (bad.resolve_left early)

/-- The state that a CLOCK leaves before its check of the deadlines (R163, R165). -/
def State.clockSet (s : State) (day second ms : Nat) : State :=
  { s with
    clock := { s.clock with day := day, second := second, millisecond := ms, accumulator := 0 }
    form := s.form.writeClocks second fun _ => true }

theorem bodyClock_of_good {s : State} {day : Half} {second : Triple} {ms : Half}
    (inDay : second.toNat < 86400) (inSecond : ms.toNat < 1000) : bodyClock day second ms s =
      .ok ((s.clockSet day.toNat second.toNat ms.toNat).checkDeadlines
        (decide (day.toNat ≠ s.clock.day))) := by
  unfold bodyClock
  rw [if_neg (show ¬secondSpan ≤ second.toNat from Nat.not_le.mpr inDay),
    if_neg (show ¬millisecondSpan ≤ ms.toNat from Nat.not_le.mpr inSecond)]
  rfl

/-- Settles O34: the clock set, the clock fields written, the table checked. -/
theorem clockSetsDeskTime : Obligations.ClockSetsDeskTime := by
  intro s day second ms left fetched
  refine ⟨fun bad => exec_refused rfl fetched (bodyClock_of_bad bad),
    fun inDay inSecond lawful ranged => ?_⟩
  intro dayChanged firing
  have law := Form.lawful_iff.mp lawful
  obtain ⟨_, _, _, _, _, sized⟩ := Clock.clockLaw_iff.mp (State.rangeLaw_iff.mp ranged).1
  obtain ⟨deadlines, checked, sized', entries⟩ :=
    (s.clockSet day.toNat second.toNat ms.toNat).checkDeadlines_eq dayChanged sized
  refine ⟨_, (exec_accepted rfl fetched (bodyClock_of_good inDay inSecond)).trans
    (congrArg (fun t => Host.Outcome.next (State.reachOffset t left)) checked), ?_⟩
  have noticed : (s.clockSet day.toNat second.toNat ms.toNat).noticed firing = s.noticed firing :=
    State.noticed_congr s (s.clockSet ..) rfl rfl (fun _ => rfl) firing
  obtain ⟨notices, sending, line⟩ := s.noticed_sendsOnly firing
  have keeps {α : Type} (part : Form → α)
      (each : ∀ (fm : Form) (susp : Bool) (f : Field) (l : List Byte), part (fm.writeContent susp f l) = part fm) :=
    Form.writeClocks_keeps part each s.form second.toNat fun _ => true
  refine ⟨rfl, rfl, rfl, rfl, rfl, sized', entries, rfl, noticed, ?active, ?suspended, ?shown, ?cells, ?saved,
    ?place, ?cursor, ?insert, ?visit, ?history, rfl, rfl, rfl, rfl, rfl, rfl, ?_⟩
  case active => exact congrArg (List.map _) (keeps (·.active) Form.writeContent_active)
  case suspended =>
    exact (Form.mapRecords_suspended ..).trans
      (congrArg (List.map _) (keeps (·.suspended) Form.writeContent_suspended))
  case shown =>
    intro f susp mem isClock known
    refine ⟨(Form.mapRecords_content ..).trans
        (Form.writeClocks_content inDay (due := fun _ => true) law mem isClock rfl known),
      fun p covered => ?_⟩
    exact (congrArg (·.style) ((Form.mapRecords_cellOf ..).trans
      (Form.writeClocks_cellOf inDay (due := fun _ => true) law mem isClock rfl known covered)))
  case cells => exact fun p active suspended => Form.writeClocks_cells inDay active suspended
  case saved =>
    exact fun p suspended => (Form.mapRecords_savedCell ..).trans (Form.writeClocks_savedCell inDay suspended)
  case place => exact (Form.mapRecords_savedPlace ..).trans (keeps (·.savedPlace) Form.writeContent_savedPlace)
  case cursor => exact keeps (·.cursor) Form.writeContent_cursor
  case insert => exact keeps (·.insert) Form.writeContent_insert
  case visit => exact keeps (·.visit) Form.writeContent_visit
  case history => exact keeps (·.history) Form.writeContent_history
  have sends := noticed.trans line
  exact ⟨congrArg (·.baud) sends, congrArg (·.receiver) sends, congrArg (·.buffers) sends, congrArg (·.reply) sends⟩

end Sys2Proof.Machine
end

section
/-! PROOFS. The base tick: what it counts, and what follows a change of second. -/

namespace Sys2Proof.Machine

open Sys2Proof

/-! ## Desk time at a tick (R162) -/

/-- The clock a base tick later, before any check of its deadlines (R162). -/
@[irreducible] def Clock.ticked (c : Clock) : Clock :=
  if accumulatorSpan ≤ c.accumulator + c.addend then
    Clock.advance { c with accumulator := c.accumulator + c.addend - accumulatorSpan }
  else { c with accumulator := c.accumulator + c.addend }

section

variable {c : Clock}

theorem Clock.advance_eq (c : Clock) : c.advance =
    { c with
      millisecond := c.advance.millisecond, second := c.advance.second, day := c.advance.day } := by
  unfold Clock.advance
  split_ifs <;> rfl

theorem Clock.ticked_accumulator (c : Clock) : c.ticked.accumulator =
    if 65536 ≤ c.accumulator + c.addend then c.accumulator + c.addend - 65536
    else c.accumulator + c.addend := by
  unfold Clock.ticked accumulatorSpan
  split
  · rw [Clock.advance_eq]
  · rfl

theorem Clock.ticked_addend (c : Clock) : c.ticked.addend = c.addend := by
  unfold Clock.ticked accumulatorSpan
  split
  · rw [Clock.advance_eq]
  · rfl

theorem Clock.ticked_deadlines (c : Clock) : c.ticked.deadlines = c.deadlines := by
  unfold Clock.ticked accumulatorSpan
  split
  · rw [Clock.advance_eq]
  · rfl

theorem Clock.ticked_clockLaw (law : c.clockLaw = true) : c.ticked.clockLaw = true := by
  obtain ⟨_, _, _, accumulator, addend, _⟩ := Clock.clockLaw_iff.mp law
  unfold Clock.ticked accumulatorSpan
  split
  · exact Clock.advance_clockLaw (Clock.clockLaw_accumulator law (by omega))
  · exact Clock.clockLaw_accumulator law (by omega)

theorem Clock.advance_total (law : c.clockLaw = true) :
    c.advance.total = (c.total + 1) % (65536 * 86400 * 1000) := by
  obtain ⟨day, second, ms, _, _, _⟩ := Clock.clockLaw_iff.mp law
  unfold Clock.advance Clock.total millisecondSpan secondSpan daySpan
  split_ifs with inSecond inDay
  all_goals
    dsimp only
    omega

theorem Clock.total_accumulator (c : Clock) (n : Nat) :
    Clock.total { c with accumulator := n } = c.total := rfl

theorem Clock.ticked_total (law : c.clockLaw = true) : c.ticked.total =
    (c.total + (if 65536 ≤ c.accumulator + c.addend then 1 else 0)) % (65536 * 86400 * 1000) := by
  obtain ⟨day, second, ms, accumulator, addend, _⟩ := Clock.clockLaw_iff.mp law
  unfold Clock.ticked accumulatorSpan
  split
  · rw [Clock.advance_total (Clock.clockLaw_accumulator law (by omega)), Clock.total_accumulator]
  · unfold Clock.total secondSpan millisecondSpan
    dsimp only
    omega

theorem Clock.advance_day (same : c.advance.second = c.second) :
    c.advance.day = c.day := by
  unfold Clock.advance at same ⊢
  split_ifs with inMs inSecond
  case neg =>
    rw [if_neg inMs, if_neg inSecond] at same
    unfold secondSpan at inSecond
    dsimp only at same
    omega
  all_goals rfl

/-- A day changes only as its second does (R162). -/
theorem Clock.ticked_day (same : c.ticked.second = c.second) :
    c.ticked.day = c.day := by
  unfold Clock.ticked at same ⊢
  by_cases carry : accumulatorSpan ≤ c.accumulator + c.addend
  · rw [if_pos carry] at same ⊢
    exact Clock.advance_day same
  · rw [if_neg carry]

end

/-! ## The tick as a whole (R162, R165, R168) -/

section

variable {s : State}

/-- The state with a tick counted and desk time on, before what a change of second brings. -/
def State.counted (s : State) : State :=
  { s with
    stream := { s.stream with phase := s.stream.phase.tick }
    line := s.line.tick
    tone := s.tone.tick
    input := { s.input with ackLeft := s.input.ackLeft - 125 }
    display := s.display.blink
    clock := s.clock.ticked }

/-- The clock fields of the form rewritten where their text changes (R165). -/
def State.struckForm (s : State) : Form :=
  s.form.writeClocks s.clock.ticked.second fun length =>
    clockText length s.clock.ticked.second ≠ clockText length s.clock.second

/-- Desk time on by a millisecond, whatever the accumulator holds by then. -/
theorem State.advanceMillisecond_eq (s : State) {c : Clock} (second : c.second = s.clock.second)
    (day : c.day = s.clock.day) : State.advanceMillisecond { s with clock := c } =
    if c.advance.second = s.clock.second ∧ c.advance.day = s.clock.day then { s with clock := c.advance }
    else State.checkDeadlines
      { s with
        clock := c.advance
        form := s.form.writeClocks c.advance.second fun length =>
          clockText length c.advance.second ≠ clockText length s.clock.second }
      (decide (c.advance.day ≠ s.clock.day)) := by
  rw [← second, ← day]
  rfl

theorem State.accumulate_eq {s : State} {c : Clock} (clock : s.clock = c) : s.accumulate =
    if c.ticked.second = c.second ∧ c.ticked.day = c.day then { s with clock := c.ticked }
    else State.checkDeadlines
      { s with
        clock := c.ticked
        form := s.form.writeClocks c.ticked.second fun length =>
          clockText length c.ticked.second ≠ clockText length c.second }
      (decide (c.ticked.day ≠ c.day)) := by
  subst clock
  cases carries : s.carries with
  | true =>
    rw [State.accumulate_of_carries carries, Clock.ticked, if_pos (State.carries_iff.mp carries)]
    exact State.advanceMillisecond_eq s rfl rfl
  | false =>
    have small : ¬accumulatorSpan ≤ s.clock.accumulator + s.clock.addend :=
      mt State.carries_iff.mpr (by simp [carries])
    rw [State.accumulate_of_not_carries carries, Clock.ticked, if_neg small, if_pos ⟨rfl, rfl⟩]

/-- A tick, by whether it changes the second or the day. -/
theorem State.tick_eq (s : State) : s.tick =
    if s.clock.ticked.second = s.clock.second ∧ s.clock.ticked.day = s.clock.day then s.counted
    else State.checkDeadlines { s.counted with form := s.struckForm }
      (decide (s.clock.ticked.day ≠ s.clock.day)) := by
  have clock : s.countTick.clock = s.clock := by rw [State.countTick]
  have form : s.countTick.form = s.form := by rw [State.countTick]
  rw [State.tick, State.accumulate_eq clock, State.counted, State.struckForm, form, State.countTick, unitsPerTick]

theorem State.tick_of_same (same : s.clock.ticked.second = s.clock.second) :
    s.tick = s.counted := by
  rw [State.tick_eq, if_pos ⟨same, Clock.ticked_day same⟩]

theorem State.tick_of_struck (other : s.clock.ticked.second ≠ s.clock.second) :
    s.tick = State.checkDeadlines { s.counted with form := s.struckForm }
      (decide (s.clock.ticked.day ≠ s.clock.day)) := by
  rw [State.tick_eq, if_neg fun same => other same.1]

theorem State.noticed_form (s : State) (fm : Form) (fired : List Nat) :
    State.noticed { s with form := fm } fired = s.noticed fired :=
  State.noticed_congr s { s with form := fm } rfl rfl (fun _ => rfl) fired

/-- A check of the deadlines after the clock fields were written, by the entries that the clock had before
the tick. -/
theorem State.checkDeadlines_struck (s : State) (fm : Form) (c : Clock) (dayChanged : Bool)
    (same : s.clock.deadlines = c.deadlines) (sized : c.deadlines.length = 4) :
    ∃ deadlines : List Deadline,
      State.checkDeadlines { s with form := fm } dayChanged =
        { s with
          clock := { s.clock with deadlines := deadlines }
          tone := s.tone.warned (c.firing dayChanged s.clock.day s.clock.second)
          line := s.noticed (c.firing dayChanged s.clock.day s.clock.second)
          form := fm.mapRecords (c.alerted (c.firing dayChanged s.clock.day s.clock.second)) } ∧
      deadlines.length = 4 ∧
      ∀ i < 4, Clock.deadline { s.clock with deadlines := deadlines } i =
        { c.deadline i with
          state := (c.deadline i).checkedState dayChanged s.clock.day s.clock.second } := by
  have deadline (i : Nat) : s.clock.deadline i = c.deadline i := by
    rw [Clock.deadline, same, Clock.deadline]
  have alerted (fired : List Nat) : s.clock.alerted fired = c.alerted fired :=
    funext (Clock.alerted_congr (fun i => ⟨_, deadline i⟩) fired)
  have firing : s.clock.firing dayChanged s.clock.day s.clock.second =
      c.firing dayChanged s.clock.day s.clock.second := by
    simp only [Clock.firing, deadline]
  obtain ⟨deadlines, checked, sized, entries⟩ :=
    State.checkDeadlines_eq { s with form := fm } dayChanged ((congrArg List.length same).trans sized)
  refine ⟨deadlines, ?_, sized, fun i inTable => ?_⟩
  · rw [← firing, ← alerted, ← State.noticed_form s fm]
    exact checked
  · rw [← deadline]
    exact entries i inTable

/-- The deadlines that fire at a change of second (R168). -/
def State.struckFiring (s : State) : List Nat :=
  s.clock.firing (decide (s.clock.ticked.day ≠ s.clock.day)) s.clock.ticked.day s.clock.ticked.second

/-- What a tick leaves that changes the second (R162, R165, R168, R169). -/
theorem State.tick_eq_of_struck (sized : s.clock.deadlines.length = 4)
    (other : s.clock.ticked.second ≠ s.clock.second) :
    ∃ deadlines : List Deadline,
      s.tick =
        { s.counted with
          clock := { s.clock.ticked with deadlines := deadlines }
          tone := s.tone.tick.warned s.struckFiring
          line := s.counted.noticed s.struckFiring
          form := s.struckForm.mapRecords (s.clock.alerted s.struckFiring) } ∧
      deadlines.length = 4 ∧
      ∀ i < 4, Clock.deadline { s.clock.ticked with deadlines := deadlines } i =
        { s.clock.deadline i with
          state := (s.clock.deadline i).checkedState (decide (s.clock.ticked.day ≠ s.clock.day))
            s.clock.ticked.day s.clock.ticked.second } := by
  obtain ⟨deadlines, checked, sized, entries⟩ := s.counted.checkDeadlines_struck s.struckForm s.clock
    (decide (s.clock.ticked.day ≠ s.clock.day)) s.clock.ticked_deadlines sized
  exact ⟨deadlines, (State.tick_of_struck other).trans checked, sized, entries⟩

/-- BASE_TICK, MILLISECOND_ADVANCE and BLINK_FLIP are one tick, or not due (log 4). -/
theorem exec_tick_or {c : Instr} (listed : c ∈ [Instr.baseTick, .millisecondAdvance, .blinkFlip]) :
    exec c s = .next s.tick ∨ exec c s = .next s := by
  have either (due : Bool) : Host.Outcome.next (if due then s.tick else s) =
      (Host.Outcome.next s.tick : Host.Outcome State Fault Refusal) ∨
      Host.Outcome.next (if due then s.tick else s) =
      (Host.Outcome.next s : Host.Outcome State Fault Refusal) := by
    cases due
    exacts [.inr rfl, .inl rfl]
  simp only [List.mem_cons, List.not_mem_nil, or_false] at listed
  obtain rfl | rfl | rfl := listed
  exacts [either s.alive, either (s.alive && s.carries), either (s.alive && s.flips)]

theorem State.flips_of {d : State} (flip : d.display.blinkCount = 1023) : d.flips = true := by
  rw [State.flips, flip]
  rfl

theorem exec_tick {c : Instr} (alive : s.start.resetLow = false)
    (due : c = .baseTick ∨
      (c = .millisecondAdvance ∧ decide (65536 ≤ s.clock.accumulator + s.clock.addend) = true) ∨
      (c = .blinkFlip ∧ decide (s.display.blinkCount = 1023) = true)) : exec c s = .next s.tick := by
  have runs : s.alive = true := by
    rw [State.alive, alive]
    rfl
  obtain rfl | ⟨rfl, carry⟩ | ⟨rfl, flip⟩ := due
  · exact congrArg Host.Outcome.next (if_pos runs)
  · exact congrArg Host.Outcome.next (if_pos (by
      rw [runs, State.carries_iff.mpr (of_decide_eq_true carry)]
      rfl))
  · exact congrArg Host.Outcome.next (if_pos (by
      rw [runs, State.flips_of (of_decide_eq_true flip)]
      rfl))

theorem Display.blink_eq {d : Display} (law : d.blinkCount < 1024) : d.blink =
    { d with
      blinkCount := if decide (d.blinkCount = 1023) then 0 else d.blinkCount + 1
      phase := if decide (d.blinkCount = 1023) then (if d.phase = .shown then .blanked else .shown)
        else d.phase } := by
  unfold Display.blink blinkPeriod
  by_cases flip : d.blinkCount = 1023
  · rw [if_neg (by omega), decide_eq_true flip]
    cases phase : d.phase <;> rfl
  · rw [if_pos (by omega), decide_eq_false flip]
    rfl

end

theorem State.noticed_nil (s : State) : s.noticed [] = s.line := rfl

theorem Tone.warned_nil (t : Tone) : t.warned [] = t := rfl

theorem Clock.alerted_nil (c : Clock) (l : List Field) : l.map (c.alerted []) = l := List.map_id _

/-- What no write of a content changes stands as the clock fields follow the tick. -/
theorem State.struckForm_keeps {α : Type} (part : Form → α)
    (each : ∀ (fm : Form) (susp : Bool) (f : Field) (l : List Byte), part (fm.writeContent susp f l) = part fm)
    (s : State) : part s.struckForm = part s.form :=
  Form.writeClocks_keeps part each _ _ _

/-- Settles O36: the tick without a change of second, and with one. -/
theorem baseTickEffect : Obligations.BaseTickEffect := by
  intro s c alive ranged sum carry flip ticked due
  obtain ⟨clockLaw, _, _, _, _, blink, _⟩ := State.rangeLaw_iff.mp ranged
  obtain ⟨_, _, _, _, _, sized⟩ := Clock.clockLaw_iff.mp clockLaw
  refine ⟨s.tick, exec_tick alive due, ?_⟩
  have tickedLaw := Clock.ticked_clockLaw clockLaw
  have carried : s.clock.ticked.accumulator = if carry = true then sum - 65536 else sum := by
    rw [Clock.ticked_accumulator]
    simp only [carry, decide_eq_true_iff]
    rfl
  have total : s.clock.ticked.total = (s.clock.total + if carry = true then 1 else 0) % (65536 * 86400 * 1000) := by
    rw [Clock.ticked_total clockLaw]
    simp only [carry, decide_eq_true_iff]
    rfl
  have phase : { s.stream with phase := s.stream.phase.tick } =
      { s.stream with phase := match s.stream.phase with
        | .chained left => .chained (left - 125)
        | .applying offset paused => .applying offset paused
        | .idle => .idle } := by
    cases s.stream.phase <;> rfl
  have display := Display.blink_eq blink
  have line : s.line.tick = ticked.line := by simp only [ticked, Line.tick, unitsPerTick]
  have gap : s.line.tick.gapLeft = s.line.gapLeft - 125 := by simp only [Line.tick, unitsPerTick]
  have tone : s.tone.tick = ticked.tone := by simp only [ticked, Tone.tick, unitsPerTick]
  have noticed (fired : List Nat) : s.counted.noticed fired = ticked.noticed fired :=
    State.noticed_congr ticked s.counted line
      (by simp only [State.counted, ticked])
      (fun i => by simp only [State.counted, ticked, Clock.deadline, Clock.ticked_deadlines]) fired
  by_cases same : s.clock.ticked.second = s.clock.second
  case pos =>
    have deadline (i : Nat) : s.clock.ticked.deadline i = s.clock.deadline i := by
      rw [Clock.deadline, Clock.ticked_deadlines, Clock.deadline]
    rw [State.tick_of_same same, State.counted, same, if_pos rfl]
    simp only [if_true, Clock.alerted_nil, State.noticed_nil, Tone.warned_nil]
    refine ⟨carried, s.clock.ticked_addend, tickedLaw, total, fun i _ => deadline i, ⟨tone, line, trivial, trivial⟩,
      display, phase, gap, ?_⟩
    rw [Line.tick]
    exact ⟨rfl, rfl, rfl, trivial, trivial, trivial, trivial, trivial, trivial, trivial, trivial, trivial,
      fun _ => ⟨trivial, rfl, rfl, tone⟩⟩
  case neg =>
    obtain ⟨deadlines, eq, sized, entries⟩ := State.tick_eq_of_struck sized same
    have keeps {α : Type} (part : Form → α) (each : ∀ (fm : Form) (susp : Bool) (f : Field) (l : List Byte),
        part (fm.writeContent susp f l) = part fm) : part s.struckForm = part s.form := s.struckForm_keeps part each
    have active := keeps (·.active) Form.writeContent_active
    have suspended := keeps (·.suspended) Form.writeContent_suspended
    have place := keeps (·.savedPlace) Form.writeContent_savedPlace
    have cursor := keeps (·.cursor) Form.writeContent_cursor
    have insert := keeps (·.insert) Form.writeContent_insert
    have visit := keeps (·.visit) Form.writeContent_visit
    have history := keeps (·.history) Form.writeContent_history
    obtain ⟨notices, sending, sends⟩ := ticked.noticed_sendsOnly s.struckFiring
    have law : Clock.clockLaw { s.clock.ticked with deadlines := deadlines } = true := by
      obtain ⟨day, second, ms, accumulator, addend, _⟩ := Clock.clockLaw_iff.mp tickedLaw
      exact Clock.clockLaw_iff.mpr ⟨day, second, ms, accumulator, addend, sized⟩
    rw [eq, noticed, State.counted]
    generalize s.struckForm = fm at active suspended place cursor insert visit history
    have other : ¬s.clock.second = s.clock.ticked.second := fun same' => same same'.symm
    have table (fired : List Nat) : (fm.mapRecords (s.clock.alerted fired)).suspended =
        s.form.suspended.map (s.clock.alerted fired) :=
      (Form.mapRecords_suspended ..).trans (congrArg _ suspended)
    simp only [other, if_false, false_implies, tone]
    refine ⟨carried, s.clock.ticked_addend, law, total, entries, ⟨rfl, rfl, congrArg _ active, table _⟩, display,
      phase, ?_⟩
    rw [sends]
    exact ⟨rfl, rfl, rfl, rfl, trivial, trivial, trivial, trivial,
      (Form.mapRecords_savedPlace ..).trans place, cursor, insert, visit, history, trivial⟩

end Sys2Proof.Machine
end

section
/-! PROOFS. The clock fields follow the ticks. -/

namespace Sys2Proof.Machine

open Sys2Proof

/-! ## The text of a clock field (R165) -/

theorem digitGlyph_inj {m n : Nat} (small : m < 10) (small' : n < 10) (same : digitGlyph m = digitGlyph n) :
    m = n := by
  have := congrArg BitVec.toNat same
  simp only [digitGlyph, BitVec.toNat_ofNat, Nat.reducePow] at this
  omega

theorem twoDigits_inj {m n : Nat} (small : m < 100) (small' : n < 100) (same : twoDigits m = twoDigits n) :
    m = n := by
  obtain ⟨tens, units⟩ := List.cons.inj same
  have high := digitGlyph_inj (by omega) (by omega) tens
  have low := digitGlyph_inj (by omega) (by omega) (List.cons.inj units).1
  omega

theorem clockText_five (second : Nat) :
    clockText 5 second = twoDigits (second / 3600) ++ [colonGlyph] ++ twoDigits (second / 60 % 60) := rfl

theorem clockText_eight (second : Nat) :
    clockText 8 second = clockText 5 second ++ [colonGlyph] ++ twoDigits (second % 60) := rfl

/-- Hours and minutes show the minute of the day. -/
theorem clockText_five_eq_iff {a b : Nat} (inDay : a < 86400) (inDay' : b < 86400) :
    clockText 5 a = clockText 5 b ↔ a / 60 = b / 60 := by
  rw [clockText_five, clockText_five]
  constructor
  · intro same
    obtain ⟨start, minutes⟩ := List.append_inj' same rfl
    have hour := twoDigits_inj (by omega) (by omega) (List.append_inj' start rfl).1
    have minute := twoDigits_inj (by omega) (by omega) minutes
    omega
  · intro same
    rw [show a / 3600 = b / 3600 by omega, same]

/-- Hours, minutes and seconds show the second of the day. -/
theorem clockText_eight_eq_iff {a b : Nat} (inDay : a < 86400) (inDay' : b < 86400) :
    clockText 8 a = clockText 8 b ↔ a = b := by
  refine ⟨fun same => ?_, congrArg _⟩
  rw [clockText_eight, clockText_eight] at same
  obtain ⟨start, seconds⟩ := List.append_inj' same rfl
  have minute := (clockText_five_eq_iff inDay inDay').mp (List.append_inj' start rfl).1
  have second := twoDigits_inj (by omega) (by omega) seconds
  omega

/-! ## The clock fields after a tick (R162, R165) -/

/-- The record but for its alert mark. -/
def Field.quiet (f : Field) : Field := { f with alert := none }

theorem Clock.alerted_quiet (c : Clock) (fired : List Nat) (f : Field) : (c.alerted fired f).quiet = f.quiet := by
  induction fired generalizing f with
  | nil => rfl
  | cons i rest ih =>
    refine (ih _).trans ?_
    dsimp only
    split
    exacts [rfl, rfl]

theorem Clock.map_alerted_quiet (c : Clock) (fired : List Nat) (l : List Field) :
    (l.map (c.alerted fired)).map Field.quiet = l.map Field.quiet := by
  rw [List.map_map]
  exact List.map_congr_left fun f _ => c.alerted_quiet fired f

/-- The cells of a clock field that is not due stand. -/
theorem Form.writeClocks_cellOf_of_not {fm : Form} {second : Nat} {due : Nat → Bool} (inDay : second < 86400)
    (law : fm.Lawful) {f : Field} {susp : Bool} (mem : (f, susp) ∈ fm.placed) (isClock : f.kind = .clock)
    (early : due f.length = false) {q : Nat} (covered : f.covers q = true) :
    (fm.writeClocks second due).cellOf susp q = fm.cellOf susp q := by
  have window : (fm.writeClocks second due).window = fm.window := fm.writeClocks_window second due
  rw [Form.cellOf_eq_storedCell, Form.cellOf_eq_storedCell, Form.inSaved_congr window]
  refine Form.writeClocks_storedCell inDay fun r mem' ⟨isClock', isDue, covered', place⟩ => ?_
  cases law.ticksAt_unique (due := fun _ => true) mem mem' ⟨isClock, rfl, covered, rfl⟩
    ⟨isClock', rfl, covered', place⟩
  rw [early] at isDue
  cases isDue

/-- Settles O37: the text by its digits; the fields by whether their text changes. -/
theorem clockFieldsFollowTick : Obligations.ClockFieldsFollowTick := by
  constructor
  · intro second inDay digits
    refine ⟨?_, rfl⟩
    rw [clockText_five, show second / 60 % 60 = second % 3600 / 60 by omega]
    rfl
  intro s t c alive tabled ranged listed ran changed
  have clockLaw := (State.rangeLaw_iff.mp ranged).1
  obtain ⟨_, inDay, _, _, _, sized⟩ := Clock.clockLaw_iff.mp clockLaw
  obtain ⟨_, inDay', _⟩ := Clock.clockLaw_iff.mp (Clock.ticked_clockLaw clockLaw)
  have law := Form.lawful_iff.mp (State.tableLaw_iff.mp tabled).1
  obtain ticked | idle := exec_tick_or (s := s) listed
  case inr => exact absurd (congrArg (·.clock.second) (Host.Outcome.next.inj (idle.symm.trans ran))) changed
  obtain rfl := Host.Outcome.next.inj (ticked.symm.trans ran)
  have other : s.clock.ticked.second ≠ s.clock.second := by
    intro same
    rw [State.tick_of_same same] at changed
    exact changed same.symm
  obtain ⟨deadlines, eq, _⟩ := State.tick_eq_of_struck sized other
  have second : s.tick.clock.second = s.clock.ticked.second := by rw [eq]
  have form : s.tick.form = s.struckForm.mapRecords (s.clock.alerted s.struckFiring) := by rw [eq]
  rw [second, form]
  simp only [Form.mapRecords_content, Form.mapRecords_cellOf]
  have shows {f : Field} {susp : Bool} (mem : (f, susp) ∈ s.form.placed) (isClock : f.kind = .clock)
      (known : f.length = 5 ∨ f.length = 8)
      (due : clockText f.length s.clock.ticked.second ≠ clockText f.length s.clock.second) :
      s.struckForm.content susp f = clockText f.length s.clock.ticked.second ∧
        ∀ p, f.covers p = true → (s.struckForm.cellOf susp p).style = f.normal :=
    ⟨Form.writeClocks_content inDay' law mem isClock (decide_eq_true due) known, fun p covered =>
      congrArg (·.style) (Form.writeClocks_cellOf inDay' law mem isClock (decide_eq_true due) known covered)⟩
  refine ⟨fun f susp mem isClock => ⟨fun eight => ?_, fun five minute => ?_, fun five minute => ?_⟩,
    fun p active suspended => Form.writeClocks_cells inDay' active suspended,
    fun p suspended => (Form.mapRecords_savedCell ..).trans (Form.writeClocks_savedCell inDay' suspended), ?_⟩
  · rw [← eight]
    exact shows mem isClock (.inr eight) (by rwa [eight, ne_eq, clockText_eight_eq_iff inDay' inDay])
  · rw [← five]
    exact shows mem isClock (.inl five) (by
      rw [five, ne_eq, clockText_five_eq_iff inDay' inDay]
      exact minute.symm)
  · have early : decide (clockText f.length s.clock.ticked.second ≠ clockText f.length s.clock.second) = false := by
      rw [five, decide_eq_false_iff_not, not_not, clockText_five_eq_iff inDay' inDay, minute]
    have cells (p : Nat) (covered : f.covers p = true) : s.struckForm.cellOf susp p = s.form.cellOf susp p :=
      Form.writeClocks_cellOf_of_not inDay' law mem isClock early covered
    exact ⟨Form.content_congr cells, cells⟩
  · have keeps {α : Type} (part : Form → α) (each : ∀ (fm : Form) (susp : Bool) (f : Field) (l : List Byte),
        part (fm.writeContent susp f l) = part fm) : part s.struckForm = part s.form := s.struckForm_keeps part each
    refine ⟨?_, ?_, (Form.mapRecords_savedPlace ..).trans (keeps (·.savedPlace) Form.writeContent_savedPlace)⟩
    · exact (s.clock.map_alerted_quiet ..).trans (congrArg _ (keeps (·.active) Form.writeContent_active))
    · rw [Form.mapRecords_suspended]
      exact (s.clock.map_alerted_quiet ..).trans (congrArg _ (keeps (·.suspended) Form.writeContent_suspended))

end Sys2Proof.Machine
end

section
/-! PROOFS. Arrivals: key bytes, wand bytes and completed scans. -/

namespace Sys2Proof.Machine

open Sys2Proof

section

variable {s : State}

theorem State.alive_of_released (released : s.start.resetLow = false) : s.alive = true := by
  rw [State.alive, released]
  rfl

/-! ## Key bytes (R83, R84, R92, R94) -/

theorem exec_keyByte (released : s.start.resetLow = false) (b : Byte) :
    exec (.keyByte b) s = .next (s.keyByte b) :=
  congrArg Host.Outcome.next (if_pos (State.alive_of_released released))

theorem State.keyByte_of_release {b : Byte} (release : 128 ≤ b.toNat) (shift : b ≠ 0xFC) (alt : b ≠ 0xFD) :
    s.keyByte b = s := by
  have press : b ≠ 0x7C ∧ b ≠ 0x7D := ⟨by rintro rfl; contradiction, by rintro rfl; contradiction⟩
  rw [State.keyByte, if_neg press.1, if_neg shift, if_neg press.2, if_neg alt, if_pos release]

theorem State.keyByte_of_press {b : Byte} (press : b.toNat < 128) (shift : b ≠ 0x7C) (alt : b ≠ 0x7D) :
    s.keyByte b = s.keyPressed b.toNat := by
  have release : b ≠ 0xFC ∧ b ≠ 0xFD := ⟨by rintro rfl; contradiction, by rintro rfl; contradiction⟩
  rw [State.keyByte, if_neg shift, if_neg release.1, if_neg alt, if_neg release.2,
    if_neg (Nat.not_le.mpr press)]

theorem Input.plane_eq (i : Input) : i.plane * 128 = if i.alt then 256 else if i.shift then 128 else 0 := by
  unfold Input.plane
  split_ifs <;> rfl

theorem State.translate_eq (s : State) (code : Nat) : s.translate code =
    s.tables.keys.getD ((if s.input.alt then 256 else if s.input.shift then 128 else 0) + code) .none := by
  rw [State.translate, Input.plane_eq]

theorem State.keyPressed_none {code : Nat} (translated : s.translate code = .none) :
    s.keyPressed code = s := by
  rw [State.keyPressed, translated]

theorem State.keyPressed_reset {code : Nat} (translated : s.translate code = .reset) :
    s.keyPressed code = s.resetArrives := by
  rw [State.keyPressed, translated]

theorem State.keyPressed_action {code : Nat} {a : Action} (translated : s.translate code = a)
    (some : a ≠ .none) (other : a ≠ .reset) : s.keyPressed code = s.actionArrives a := by
  rw [State.keyPressed, translated]
  cases a with
  | none => exact absurd rfl some
  | reset => exact absurd rfl other
  | _ => rfl

/-- An action or a RESET that arrives in OPEN, or in HELD from OPEN, is queued (R92, R94). -/
theorem State.keyPressed_of_open {code : Nat} {a : Action} (translated : s.translate code = a)
    (some : a ≠ .none) (opens : s.input.entry = .openEntry ∨ s.input.entry = .held .openEntry) :
    s.keyPressed code = s.queueAction a := by
  by_cases reset : a = .reset
  · subst reset
    rw [State.keyPressed_reset translated, State.resetArrives]
    obtain entry | entry := opens
    all_goals rw [entry]
  · rw [State.keyPressed_action translated some reset, State.actionArrives]
    obtain entry | entry := opens
    all_goals rw [entry, arrivalVerdict]

theorem State.actionArrives_of_await (awaits : s.input.entry = .await ∨ s.input.entry = .held .await)
    (a : Action) : s.actionArrives a =
      if s.tables.options.typeAhead then s.queueAction a else s.sound .refuse := by
  rw [State.actionArrives]
  obtain entry | entry := awaits
  all_goals
    rw [entry, arrivalVerdict]
    cases s.tables.options.typeAhead <;> rfl

theorem State.actionArrives_of_fault (faulty : s.input.entry = .fault ∨ s.input.entry = .held .fault)
    (a : Action) : s.actionArrives a = s := by
  rw [State.actionArrives]
  obtain entry | entry := faulty
  all_goals rw [entry, arrivalVerdict]

/-- Settles O39: modifiers, releases, and a press by its translation. -/
theorem keyBytes : Obligations.KeyBytes := by
  intro s released
  refine ⟨exec_keyByte released _, exec_keyByte released _, exec_keyByte released _, exec_keyByte released _,
    fun b release shift alt => (exec_keyByte released b).trans
      (congrArg _ (State.keyByte_of_release release shift alt)), fun b a press shift alt translated => ?_⟩
  rw [← State.translate_eq] at translated
  rw [exec_keyByte released, State.keyByte_of_press press shift alt]
  refine ⟨fun none => ?_, fun some opens => ?_, fun some other awaits => ?_, fun some other faulty => ?_,
    fun reset awaits => ?_, fun reset fault => ?_, fun reset held => ?_⟩
  · rw [State.keyPressed_none (translated.trans none)]
  · rw [State.keyPressed_of_open translated some opens]
    rfl
  · rw [State.keyPressed_action translated some other, State.actionArrives_of_await awaits]
    rfl
  · rw [State.keyPressed_action translated some other, State.actionArrives_of_fault faulty]
  · rw [State.keyPressed_reset (translated.trans reset), State.resetArrives]
    obtain entry | entry := awaits
    all_goals rw [entry]
  · rw [State.keyPressed_reset (translated.trans reset), State.resetArrives, fault]
  · rw [State.keyPressed_reset (translated.trans reset), State.resetArrives, held]

/-! ## Scans gathered and completed (R93, R120, R121) -/

theorem arrivalVerdict_queued_iff {e : EntryState} {typeAhead : Bool} :
    arrivalVerdict e typeAhead = .queued ↔
      e = .openEntry ∨ e = .held .openEntry ∨ ((e = .await ∨ e = .held .await) ∧ typeAhead = true) := by
  cases e with
  | held back => cases back <;> cases typeAhead <;> simp [arrivalVerdict]
  | openEntry | await | fault => cases typeAhead <;> simp [arrivalVerdict]

theorem State.allowsScan_iff : s.allowsScan = true ↔
    arrivalVerdict s.input.entry s.tables.options.typeAhead = .queued ∧
      s.input.typeAhead.length < 32 ∧ s.input.scans.length < 4 := by
  simp [State.allowsScan, typeAheadRoom, scanRoom, and_assoc]

theorem exec_wandByte (released : s.start.resetLow = false) {b : Byte} (inside : b ≠ 0x0D) :
    exec (.wandByte b) s = .next { s with input := { s.input with scan := s.input.scan.gather b } } := by
  change execWandByte b s = _
  rw [execWandByte, State.alive_of_released released, if_neg inside]
  rfl

theorem exec_scanComplete (released : s.start.resetLow = false) : exec .scanComplete s = .next s.scanCompleted :=
  congrArg Host.Outcome.next (if_pos (State.alive_of_released released))

/-- The assembler holds a scan that is not to be discarded (R121). -/
def PartialScan.isGood (p : PartialScan) : Bool := !(p.bad || p.overlong || p.chars.isEmpty)

theorem PartialScan.isGood_iff {p : PartialScan} :
    p.isGood = true ↔ p.bad = false ∧ p.overlong = false ∧ p.chars ≠ [] := by
  simp [PartialScan.isGood, and_assoc]

theorem State.scanCompleted_eq (s : State) : s.scanCompleted =
    if s.input.scan.isGood = true ∧ s.allowsScan = true then
      { s with
        input := { s.input with
          typeAhead := s.input.typeAhead ++ [.marker]
          scans := s.input.scans ++ [s.input.scan.chars]
          scan := emptyScan
          ackLeft := ackUnits } }
    else State.sound { s with input := { s.input with scan := emptyScan } } .refuse := by
  rw [State.scanCompleted, PartialScan.isGood]
  cases s.input.scan.bad || s.input.scan.overlong || s.input.scan.chars.isEmpty with
  | true => rfl
  | false => cases s.allowsScan <;> rfl

/-- Settles O40: a byte gathered, a scan accepted or refused. -/
theorem wandAndScan : Obligations.WandAndScan := by
  intro s released p empty queues accepted
  have taken : s.input.scan.isGood = true ∧ s.allowsScan = true ↔ accepted := by
    rw [PartialScan.isGood_iff, State.allowsScan_iff, arrivalVerdict_queued_iff, and_assoc, and_assoc]
  rw [exec_scanComplete released, State.scanCompleted_eq]
  exact ⟨fun b inside => exec_wandByte released inside, fun fits => congrArg _ (if_pos (taken.mpr fits)),
    fun fails => congrArg _ (if_neg (mt taken.mp fails))⟩

end

end Sys2Proof.Machine
end

section
/-! PROOFS. Field moves and BACK: the field each chooses. -/

namespace Sys2Proof.Machine

open Sys2Proof

/-! ## The first that satisfies a condition, or else the first (R106 to R109) -/

/-- What is chosen of an ordered list: the first with the property, or else the first. -/
theorem find_or_head_spec {α : Type} {R : α → α → Prop} {l : List α} (refl : ∀ a, R a a) (order : l.Pairwise R)
    (some : l ≠ []) (p : α → Bool) :
    ∃ a ∈ l, (l.find? p).or l.head? = .some a ∧
      ((∃ b ∈ l, p b = true) → p a = true ∧ ∀ b ∈ l, p b = true → R a b) ∧
      ((∀ b ∈ l, ¬p b = true) → ∀ b ∈ l, R a b) := by
  cases found : l.find? p with
  | some a =>
    obtain ⟨holds, before, after, rfl, failing⟩ := List.find?_eq_some_iff_append.mp found
    have listed : a ∈ before ++ a :: after := List.mem_append_right _ (List.mem_cons_self ..)
    refine ⟨a, listed, rfl, fun _ => ⟨holds, fun b later held => ?_⟩, fun none => absurd holds (none a listed)⟩
    rcases List.mem_append.mp later with early | late
    · have fails := failing b early
      rw [held] at fails
      cases fails
    · rcases List.mem_cons.mp late with rfl | late
      · exact refl b
      · exact List.rel_of_pairwise_cons (List.pairwise_append.mp order).2.1 late
  | none =>
    rw [List.find?_eq_none] at found
    cases l with
    | nil => exact absurd rfl some
    | cons a rest =>
      refine ⟨a, List.mem_cons_self .., rfl,
        fun ⟨b, listed, holds⟩ => absurd holds (found b listed), fun _ b listed => ?_⟩
      rcases List.mem_cons.mp listed with rfl | late
      · exact refl b
      · exact List.rel_of_pairwise_cons order late

section

variable {fm : Form}

theorem Form.newlineField_eq (fm : Form) : fm.newlineField =
    (fm.eligible.find? fun f => fm.cursor / 96 < f.start / 96).or fm.eligible.head? := by
  unfold Form.newlineField screenCols
  cases List.find? _ _ <;> rfl

theorem Form.prevField_eq (fm : Form) : fm.prevField =
    (fm.eligible.reverse.find? fun f => f.start < (fm.current.map (·.start)).getD fm.cursor).or
      fm.eligible.reverse.head? := by
  unfold Form.prevField
  rw [List.head?_reverse]
  cases fm.current
  all_goals
    dsimp only [Option.map_none, Option.map_some, Option.getD_none, Option.getD_some]
    cases List.find? _ _ <;> rfl

theorem Form.chained_eq (fm : Form) : fm.chained =
    (fm.current.bind (·.next)).bind fun t => fm.eligible.find? (·.tag == t) := by
  unfold Form.chained
  cases fm.current with
  | none => rfl
  | some f =>
    dsimp only [Option.bind_some]
    cases f.next <;> rfl

theorem Form.nextField_eq (fm : Form) : fm.nextField =
    fm.chained.or ((fm.eligible.find? fun f => fm.cursor < f.start).or fm.eligible.head?) := by
  unfold Form.nextField
  cases fm.chained with
  | some f => rfl
  | none => cases List.find? _ _ <;> rfl

/-- The eligible fields stand in position order (R106). -/
theorem Form.Lawful.eligible_order (law : fm.Lawful) : fm.eligible.Pairwise fun f g => f.start ≤ g.start :=
  (law.activeOrder.sublist List.filter_sublist).imp fun before => by
    simp only [Field.precedes, decide_eq_true_iff] at before
    omega

theorem Form.chained_none_iff : fm.chained = none ↔
    ∀ t, fm.current.bind (·.next) = some t → ∀ g ∈ fm.eligible, g.tag ≠ t := by
  rw [Form.chained_eq]
  cases fm.current.bind (·.next) with
  | none => simp
  | some t => simp [List.find?_eq_none]

theorem Form.chained_some {f : Field} (found : fm.chained = some f) :
    fm.current.bind (·.next) = some f.tag := by
  rw [Form.chained_eq, Option.bind_eq_some_iff] at found
  obtain ⟨t, chain, found⟩ := found
  have same : f.tag = t := eq_of_beq (List.find?_some (p := fun g : Field => g.tag == t) found)
  rw [chain, same]

end

/-! ## HOME, NEWLINE, NEXT and PREV (R106 to R110) -/

theorem Form.eligible_eq_filter (fm : Form) : fm.eligible =
    fm.active.filter fun f => f.kind = .entry && fm.overlay.all fun o => o.window.holds f := by
  rw [Form.eligible]
  exact congrArg (fun p => fm.active.filter p) (funext fun f => by rw [Form.reachable_eq_all])

/-- The four field moves, each with the field it chooses. -/
def movesByField : List (Instr × Action × (Form → Option Field)) :=
  [(.home, .home, Form.homeField), (.newline, .newline, Form.newlineField), (.next, .next, Form.nextField),
    (.prev, .prev, Form.prevField)]

theorem exec_moveByField {s : State} {c : Instr} {a : Action} {chosen : Form → Option Field} {rest : List QueueEntry}
    (listed : (c, a, chosen) ∈ movesByField) (opened : s.input.entry = .openEntry)
    (queued : s.input.typeAhead = .action a :: rest) :
    exec c s = .next { s with
      input := { s.input with typeAhead := rest }
      form := s.form.moveTo s.tables.options.insertAtEntry true (s.form.moveTarget (chosen s.form)) } := by
  have arm : exec c s = .next (s.moveAction a true fun fm => fm.moveTarget (chosen fm)) := by
    simp only [movesByField, List.mem_cons, List.not_mem_nil, or_false, Prod.mk.injEq] at listed
    obtain ⟨rfl, rfl, rfl⟩ | ⟨rfl, rfl, rfl⟩ | ⟨rfl, rfl, rfl⟩ | ⟨rfl, rfl, rfl⟩ := listed
    all_goals rfl
  rw [arm, State.moveAction_of true opened queued rfl]

/-- Without an eligible field, each goes to the home position (R106). -/
theorem movesByField_none {fm : Form} (none : fm.eligible = []) {c : Instr} {a : Action}
    {chosen : Form → Option Field} (listed : (c, a, chosen) ∈ movesByField) : chosen fm = .none := by
  simp only [movesByField, List.mem_cons, List.not_mem_nil, or_false, Prod.mk.injEq] at listed
  obtain ⟨rfl, rfl, rfl⟩ | ⟨rfl, rfl, rfl⟩ | ⟨rfl, rfl, rfl⟩ | ⟨rfl, rfl, rfl⟩ := listed
  · rw [Form.homeField, none, List.head?_nil]
  · rw [Form.newlineField_eq, none]
    rfl
  · rw [Form.nextField_eq, Form.chained_none_iff.mpr (by simp [none]), none]
    rfl
  · rw [Form.prevField_eq, none]
    rfl

theorem Form.nextField_of_chained {fm : Form} {f : Field} (found : fm.chained = some f) : fm.nextField = some f := by
  rw [Form.nextField_eq, found, Option.some_or]

/-- Settles O43: each chosen field, by the order of the eligible ones. -/
theorem fieldMoves : Obligations.FieldMoves := by
  intro s rest c a listed lawful opened queued
  have order := (Form.lawful_iff.mp lawful).eligible_order
  intro fm eligible went first chain
  have same : eligible = fm.eligible := fm.eligible_eq_filter.symm
  clear_value eligible
  subst same
  have among (p : Field → Prop) [DecidablePred p] (some : fm.eligible ≠ []) :
      ∃ f ∈ fm.eligible, (fm.eligible.find? p).or fm.eligible.head? = .some f ∧ first f p := by
    simpa only [decide_eq_true_iff] using find_or_head_spec (fun f : Field => le_refl f.start) order some p
  have home {chosen : Form → Option Field} (listed : (c, a, chosen) ∈ movesByField) (none : fm.eligible = []) :
      exec c s = .next (went fm.homePosition) := by
    rw [exec_moveByField listed opened queued, movesByField_none none listed]
    rfl
  have goes {chosen : Form → Option Field} (listed : (c, a, chosen) ∈ movesByField) {f : Field}
      (choice : chosen fm = some f) : exec c s = .next (went f.start) := by
    rw [exec_moveByField listed opened queued, choice]
    rfl
  simp only [List.mem_cons, List.not_mem_nil, or_false, Prod.mk.injEq] at listed
  rcases listed with ⟨rfl, rfl⟩ | ⟨rfl, rfl⟩ | ⟨rfl, rfl⟩ | ⟨rfl, rfl⟩
  · have listed : (Instr.home, Action.home, Form.homeField) ∈ movesByField := by simp [movesByField]
    refine ⟨home listed, fun some => ?_⟩
    obtain ⟨f, mem, choice, _, least⟩ := among (fun _ => False) some
    refine ⟨f, mem, goes listed ?_, fun _ => least fun _ _ => id, nofun, nofun, nofun⟩
    have nowhere : fm.eligible.find? (fun _ => decide False) = none := List.find?_eq_none.mpr fun _ _ => nofun
    rw [nowhere, Option.none_or] at choice
    exact choice
  · have listed : (Instr.newline, Action.newline, Form.newlineField) ∈ movesByField := by simp [movesByField]
    refine ⟨home listed, fun some => ?_⟩
    obtain ⟨f, mem, choice, spec⟩ := among (fun g => fm.cursor / 96 < g.start / 96) some
    exact ⟨f, mem, goes listed (fm.newlineField_eq.trans choice), nofun, fun _ => spec, nofun, nofun⟩
  · have listed : (Instr.next, Action.next, Form.nextField) ∈ movesByField := by simp [movesByField]
    refine ⟨home listed, fun some => ?_⟩
    cases found : fm.chained with
    | some f =>
      have link : chain = .some f.tag := Form.chained_some found
      have mem := Form.chained_eligible found
      refine ⟨f, mem, goes listed (Form.nextField_of_chained found), nofun, nofun,
        fun _ => ⟨fun t led _ => ?_, fun none => ?_⟩, nofun⟩
      · exact Option.some.inj (link.symm.trans led)
      · exact absurd rfl (none f.tag link f mem)
    | none =>
      obtain ⟨f, mem, choice, spec⟩ := among (fun g => fm.cursor < g.start) some
      have next : fm.nextField = .some f := by rw [Form.nextField_eq, found, Option.none_or, choice]
      refine ⟨f, mem, goes listed next, nofun, nofun,
        fun _ => ⟨fun t led ⟨g, held, tag⟩ => ?_, fun _ => spec⟩, nofun⟩
      exact absurd tag (Form.chained_none_iff.mp found t led g held)
  · have listed : (Instr.prev, Action.prev, Form.prevField) ∈ movesByField := by simp [movesByField]
    refine ⟨home listed, fun some => ?_⟩
    obtain ⟨f, mem, choice, before, last⟩ := find_or_head_spec (fun f : Field => le_refl f.start)
      (List.pairwise_reverse.mpr order) (mt List.reverse_eq_nil_iff.mp some)
      fun f => decide (f.start < (fm.current.map (·.start)).getD fm.cursor)
    simp only [List.mem_reverse, decide_eq_true_iff, Nat.not_lt] at mem before last
    exact ⟨f, mem, goes listed (fm.prevField_eq.trans choice), nofun, nofun, nofun, fun _ => ⟨before, last⟩⟩

/-! ## BACK (R111) -/

section

variable {fm : Form}

theorem Form.backField_eq_some_iff {t : Nat} {f : Field} : fm.backField t = some f ↔
    fm.activeTag t = some f ∧ fm.current.map (·.tag) ≠ some t ∧ fm.reachable f = true := by
  rw [ne_eq, ← Form.isCurrent_iff, Form.backField]
  cases fm.activeTag t with
  | none => simp
  | some g =>
    simp only [Option.ite_none_right_eq_some, Bool.and_eq_true, Bool.not_eq_true', Bool.not_eq_true,
      Option.some.injEq]
    constructor
    · rintro ⟨⟨other, inside⟩, rfl⟩
      exact ⟨rfl, other, inside⟩
    · rintro ⟨rfl, other, inside⟩
      exact ⟨⟨other, inside⟩, rfl⟩

theorem Form.backPop_append {skipped rest : List Nat} (none : ∀ u ∈ skipped, fm.backField u = .none) :
    fm.backPop (skipped ++ rest) = fm.backPop rest := by
  induction skipped with
  | nil => rfl
  | cons u later ih =>
    rw [List.cons_append, Form.backPop, none u (List.mem_cons_self ..)]
    exact ih fun v listed => none v (List.mem_cons_of_mem u listed)

theorem Form.backPop_of_accepted {t : Nat} {left : List Nat} {f : Field} (accepted : fm.backField t = some f) :
    fm.backPop (t :: left) = (some f, left) := by
  rw [Form.backPop, accepted]

end

theorem exec_back {s : State} {rest : List QueueEntry} (opened : s.input.entry = .openEntry)
    (queued : s.input.typeAhead = .action .back :: rest) :
    exec .back s = .next (State.goBack { s with input := { s.input with typeAhead := rest } }) := by
  change execBack s = _
  rw [execBack, State.takeEntry_of opened queued]

/-- A key refused: the tone, and FAULT but under soft faults (R97). -/
theorem State.keyRefused_eq (s : State) : s.keyRefused =
    { s with
      input := if s.tables.options.softFaults then s.input
        else { s.input with typeAhead := [], scans := [], entry := .fault }
      tone := s.tone.request .refuse } := by
  unfold State.keyRefused
  cases s.tables.options.softFaults <;> rfl

/-- Settles O44: the first tag accepted, or none. -/
theorem backReturns : Obligations.BackReturns := by
  intro s rest opened queued accepts
  have accepted (t : Nat) (f : Field) : accepts t f ↔ s.form.backField t = some f := by
    rw [Form.backField_eq_some_iff, Form.reachable_eq_all]
  have passed {l : List Nat} (none : ∀ u ∈ l, ∀ g, ¬accepts u g) : ∀ u ∈ l, s.form.backField u = .none :=
    fun u listed => Option.eq_none_iff_forall_ne_some.mpr fun g found => none u listed g ((accepted u g).mpr found)
  refine ⟨fun skipped t left f history skips takes => ?_, fun none => ?_⟩
  · have popped : s.form.backPop s.form.history = (some f, left) := by
      rw [history, Form.backPop_append (passed skips), Form.backPop_of_accepted ((accepted t f).mp takes)]
    rw [exec_back opened queued, State.goBack, popped]
  · have popped : s.form.backPop s.form.history = (.none, []) := by
      rw [← List.append_nil s.form.history, Form.backPop_append (passed none)]
      rfl
    rw [exec_back opened queued, State.goBack, popped, State.keyRefused_eq]

end Sys2Proof.Machine
end

section
/-! PROOFS. Editing: CHAR, the erasing edits, the steps, and where an edit is refused. -/

namespace Sys2Proof.Machine

open Sys2Proof

/-! ## An editing action that is due (R95, R97, R117) -/

section

variable {s u : State} {a : Action} {rest : List QueueEntry} {body : State → Option State}

theorem State.editAction_of (opened : s.input.entry = .openEntry) (queued : s.input.typeAhead = .action a :: rest)
    (carried : body { s with input := { s.input with typeAhead := rest } } = some u) :
    s.editAction a body = u := by
  rw [State.editAction, State.takeEntry_of opened queued]
  dsimp only
  rw [carried]

theorem State.editAction_of_refused (opened : s.input.entry = .openEntry)
    (queued : s.input.typeAhead = .action a :: rest)
    (refused : body { s with input := { s.input with typeAhead := rest } } = none) :
    s.editAction a body = { s with
      input := if s.tables.options.softFaults then { s.input with typeAhead := rest }
        else { s.input with typeAhead := [], scans := [], entry := .fault }
      tone := s.tone.request .refuse } := by
  rw [State.editAction, State.takeEntry_of opened queued]
  dsimp only
  rw [refused]
  exact State.keyRefused_eq _

end

section

variable {fm : Form} {f : Field}

/-! ## The cells and the marks of an edit (R103, R112, R114, R115) -/

/-- A record with the modified mark that an edit of its field sets. -/
def Field.editedAs (t : Nat) (g : Field) : Field := if g.tag = t then { g with modified := true } else g

theorem Form.writeFrom_false (fm : Form) (f : Field) (offset : Nat) (l : List Byte) :
    fm.writeFrom false f offset l = { fm with cells := (fm.writeFrom false f offset l).cells } :=
  Form.writeGlyphs_false ..

theorem Form.edited_writeFrom (fm : Form) (f : Field) (offset : Nat) (l : List Byte) :
    (fm.writeFrom false f offset l).edited f =
      { fm.mapRecords (Field.editedAs f.tag) with
        cells := (fm.writeFrom false f offset l).cells
        visit := true } := by
  generalize written : (fm.writeFrom false f offset l).cells = cells
  rw [Form.writeFrom_false, written]
  rfl

theorem Form.readCell_writeFrom (canonical : fm.storeLaw = true) (f : Field) (offset : Nat) (l : List Byte)
    (p : Nat) : readCell (fm.writeFrom false f offset l).cells p =
      if f.start + offset ≤ p ∧ p < f.start + offset + min (f.length - offset) l.length then
        { glyph := l.getD (p - (f.start + offset)) 0, style := f.normal }
      else readCell fm.cells p := by
  simpa using Form.writeFrom_storedCell canonical false f offset l false p

/-- The rest of a field from a place on written: the field shows the glyphs before the place and then the
new ones. -/
theorem Form.readCell_writeRest (canonical : fm.storeLaw = true) {offset : Nat} {before l : List Byte}
    (within : offset ≤ before.length) (whole : f.length - offset ≤ l.length) (p : Nat) :
    readCell (fm.writeFrom false f offset l).cells p =
      if f.covers p = true ∧ f.start + offset ≤ p then
        { glyph := (before.take offset ++ l).getD (p - f.start) 0, style := f.normal }
      else readCell fm.cells p := by
  have place : (f.start + offset ≤ p ∧ p < f.start + offset + min (f.length - offset) l.length) ↔
      (f.covers p = true ∧ f.start + offset ≤ p) := by
    rw [Field.covers_iff]
    omega
  simp only [Form.readCell_writeFrom canonical, place]
  split
  case isFalse => rfl
  case isTrue inside =>
    have size : (before.take offset).length = offset := List.length_take_of_le within
    rw [List.getD_append_right _ _ _ _ (by omega), size, Nat.sub_add_eq]

theorem Form.offset_lt (current : fm.current = some f) : fm.cursor - f.start < f.length ∧ f.start ≤ fm.cursor := by
  have covered := Field.covers_iff.mp (Form.mem_active_of_fieldAt current).2
  omega

theorem Form.length_restOfField (fm : Form) (f : Field) :
    (fm.restOfField f).length = f.length - (fm.cursor - f.start) := by
  rw [Form.restOfField, List.length_drop, Form.length_content]

/-! ## The erasing edits (R114, R115) -/

section

variable {s : State} (entry : s.form.entryField = some f)

include entry

theorem bodyBackspace_of (later : f.start < s.form.cursor) : bodyBackspace s =
    some { s with form :=
      { s.form.mapRecords (Field.editedAs f.tag) with
        cells := (s.form.writeFrom false f (s.form.cursor - f.start - 1) (s.form.restOfField f ++ [0])).cells
        visit := true
        cursor := s.form.cursor - 1 } } := by
  unfold bodyBackspace
  rw [entry]
  dsimp only
  rw [if_neg (by omega), Form.edited_writeFrom]
  rfl

theorem bodyDelete_of : bodyDelete s =
    some { s with form :=
      { s.form.mapRecords (Field.editedAs f.tag) with
        cells := (s.form.writeFrom false f (s.form.cursor - f.start) ((s.form.restOfField f).drop 1 ++ [0])).cells
        visit := true } } := by
  unfold bodyDelete
  rw [entry]
  dsimp only
  rw [Form.edited_writeFrom]
  rfl

theorem bodyEraseToEnd_of : bodyEraseToEnd s =
    some { s with form :=
      { s.form.mapRecords (Field.editedAs f.tag) with
        cells := (s.form.writeFrom false f (s.form.cursor - f.start) (List.replicate f.length 0)).cells
        visit := true } } := by
  unfold bodyEraseToEnd
  rw [entry]
  dsimp only
  rw [Form.edited_writeFrom]
  rfl

theorem bodyEraseField_of : bodyEraseField s =
    some { s with form :=
      { s.form.mapRecords (Field.editedAs f.tag) with
        cells := (s.form.writeFrom false f 0 (List.replicate f.length 0)).cells
        visit := true
        cursor := f.start } } := by
  unfold bodyEraseField Form.writeContent
  rw [entry]
  dsimp only
  rw [Form.edited_writeFrom]
  rfl

end

/-- Only the glyphs that fit the rest of the field are written. -/
theorem Form.writeFrom_take (fm : Form) (susp : Bool) (f : Field) (offset : Nat) (l : List Byte) :
    fm.writeFrom susp f offset (l.take (f.length - offset)) = fm.writeFrom susp f offset l := by
  rw [Form.writeFrom, List.take_take, min_self, Form.writeFrom]

end

/-- Settles O46: each edit writes the rest of the field from its place on. -/
theorem erasingEdits : Obligations.ErasingEdits := by
  intro s c a rest f place content _ canonical opened queued current isEntry before offset edit
  obtain ⟨inside, started⟩ := Form.offset_lt current
  have entry : s.form.entryField = some f := Form.entryField_iff.mpr ⟨current, isEntry⟩
  have sized : before.length = f.length := s.form.length_content false f
  have rest_eq : s.form.restOfField f = before.drop offset := rfl
  have inField : f.start + offset = s.form.cursor := by omega
  have cells {n : Nat} (l : List Byte) (within : n < f.length) (whole : f.length - n ≤ l.length)
      (starts : place = f.start + n) (written : content = before.take n ++ l) (p : Nat) :
      readCell (s.form.writeFrom false f n l).cells p =
        if f.covers p = true ∧ place ≤ p then { glyph := content.getD (p - f.start) 0, style := f.normal }
        else readCell s.form.cells p := by
    rw [written, starts]
    exact Form.readCell_writeRest canonical (by omega) whole p
  obtain ⟨rfl, rfl, later, rfl, written⟩ | ⟨rfl, rfl, rfl, written⟩ | ⟨rfl, rfl, rfl, written⟩ |
    ⟨rfl, rfl, rfl, written⟩ := edit
  · refine ⟨_, cells (n := offset - 1) (before.drop offset ++ [0]) (by omega) ?_ (by omega) ?_, ?_⟩
    · rw [List.length_append, List.length_drop, sized]
      simp only [List.length_singleton]
      omega
    · rw [written, List.append_assoc]
    · exact congrArg _ (State.editAction_of opened queued (bodyBackspace_of entry later))
  · refine ⟨_, cells (n := offset) (before.drop (offset + 1) ++ [0]) inside ?_ inField.symm ?_, ?_⟩
    · rw [List.length_append, List.length_drop, sized]
      simp only [List.length_singleton]
      omega
    · rw [written, List.append_assoc]
    · refine congrArg _ ((State.editAction_of opened queued (bodyDelete_of entry)).trans ?_)
      rw [rest_eq, List.drop_drop]
      rfl
  · refine ⟨_, cells (n := offset) (List.replicate (f.length - offset) 0) inside ?_ inField.symm written, ?_⟩
    · rw [List.length_replicate]
    · refine congrArg _ ((State.editAction_of opened queued (bodyEraseToEnd_of entry)).trans ?_)
      rw [← Form.writeFrom_take, List.take_replicate, Nat.min_eq_left (Nat.sub_le ..)]
      rfl
  · refine ⟨_, cells (n := 0) (List.replicate f.length 0) (by omega) ?_ rfl written, ?_⟩
    · rw [List.length_replicate, Nat.sub_zero]
    · exact congrArg _ (State.editAction_of opened queued (bodyEraseField_of entry))

/-! ## CHAR (R112, R118) -/

section

variable {fm : Form} {f : Field}

/-- What a CHAR writes from the cursor on, in overtype or by an insert (R112 step 4). -/
def Form.typed (fm : Form) (f : Field) (g : Byte) : List Byte :=
  if fm.insert then g :: (fm.restOfField f).dropLast else [g]

theorem Form.getLastD_restOfField (current : fm.current = some f) :
    (fm.restOfField f).getLastD 0 = (readCell fm.cells (f.start + f.length - 1)).glyph := by
  obtain ⟨inside, _⟩ := Form.offset_lt current
  have last : f.covers (f.start + f.length - 1) = true := Field.covers_iff.mpr (by omega)
  rw [Form.restOfField, List.getLastD_eq_getLast?, List.getLast?_drop, Form.length_content,
    if_neg (Nat.not_le.mpr inside), List.getLast?_eq_getElem?, ← List.getD_eq_getElem?_getD, Form.length_content,
    show f.length - 1 = f.start + f.length - 1 - f.start by omega, Form.getD_content last, Form.cellOf_false]

theorem Form.placeGlyph_of {g : Byte} (current : fm.current = some f)
    (room : fm.insert = true → (readCell fm.cells (f.start + f.length - 1)).glyph = 0) :
    fm.placeGlyph f g = some (fm.writeFrom false f (fm.cursor - f.start) (fm.typed f g)) := by
  unfold Form.placeGlyph Form.typed
  cases insert : fm.insert with
  | false => rfl
  | true => exact if_pos ((Form.getLastD_restOfField current).trans (room insert))

theorem Form.placeGlyph_of_full {g : Byte} (current : fm.current = some f) (insert : fm.insert = true)
    (full : (readCell fm.cells (f.start + f.length - 1)).glyph ≠ 0) : fm.placeGlyph f g = none := by
  unfold Form.placeGlyph
  rw [insert]
  exact if_neg fun null => full ((Form.getLastD_restOfField current).symm.trans null)

/-- An insert moves the glyphs from the cursor on one place right. -/
theorem Form.getD_inserted (g : Byte) {p : Nat} (later : fm.cursor < p) (started : f.start ≤ fm.cursor)
    (covered : f.covers p = true) : (g :: (fm.restOfField f).dropLast).getD (p - fm.cursor) 0 =
      (readCell fm.cells (p - 1)).glyph := by
  have inside := Field.covers_iff.mp covered
  have before : f.covers (p - 1) = true := Field.covers_iff.mpr (by omega)
  have place : p - fm.cursor - 1 < (fm.restOfField f).length - 1 := by
    rw [Form.length_restOfField]
    omega
  rw [← Form.cellOf_false, ← Form.getD_content before, show p - fm.cursor = p - fm.cursor - 1 + 1 by omega,
    List.getD_cons_succ, List.getD_eq_getElem?_getD, List.getElem?_dropLast, if_pos place, Form.restOfField,
    List.getElem?_drop, ← List.getD_eq_getElem?_getD,
    show fm.cursor - f.start + (p - fm.cursor - 1) = p - 1 - f.start by omega]

theorem Form.readCell_typed (canonical : fm.storeLaw = true) (current : fm.current = some f) (g : Byte) (p : Nat) :
    readCell (fm.writeFrom false f (fm.cursor - f.start) (fm.typed f g)).cells p =
      if p = fm.cursor then { glyph := g, style := f.normal }
      else if fm.insert = true ∧ fm.cursor < p ∧ f.covers p = true then
        { glyph := (readCell fm.cells (p - 1)).glyph, style := f.normal }
      else readCell fm.cells p := by
  obtain ⟨inside, started⟩ := Form.offset_lt current
  rw [Form.readCell_writeFrom canonical, show f.start + (fm.cursor - f.start) = fm.cursor by omega]
  by_cases here : p = fm.cursor
  case pos =>
    subst here
    have first : (fm.typed f g).getD 0 0 = g := by
      unfold Form.typed
      split <;> rfl
    have some : 0 < (fm.typed f g).length := by
      unfold Form.typed
      split <;> simp
    rw [if_pos (by omega), if_pos rfl, Nat.sub_self, first]
  case neg =>
    rw [if_neg here]
    unfold Form.typed
    cases insert : fm.insert with
    | false =>
      have single : ([g] : List Byte).length = 1 := rfl
      rw [if_neg Bool.false_ne_true, if_neg (by omega), if_neg (by simp)]
    | true =>
      have place : (fm.cursor ≤ p ∧ p < fm.cursor + min (f.length - (fm.cursor - f.start))
          (g :: (fm.restOfField f).dropLast).length) ↔ (true = true ∧ fm.cursor < p ∧ f.covers p = true) := by
        rw [Field.covers_iff, List.length_cons, List.length_dropLast, Form.length_restOfField, eq_self, true_and]
        omega
      rw [if_pos rfl]
      simp only [place]
      split
      case isFalse => rfl
      case isTrue later => rw [Form.getD_inserted g later.2.1 started later.2.2]

/-- The form as a CHAR leaves it before its advance. -/
def Form.charPlaced (fm : Form) (f : Field) (g : Byte) : Form :=
  { fm.mapRecords (Field.editedAs f.tag) with
    cells := (fm.writeFrom false f (fm.cursor - f.start) (fm.typed f g)).cells
    visit := true }

theorem bodyChar_of {s : State} {glyph : Byte} (entry : s.form.entryField = some f)
    (admitted : admits s.tables.classes f (foldGlyph s.tables.classes f glyph) = true)
    (room : s.form.insert = true → (readCell s.form.cells (f.start + f.length - 1)).glyph = 0) :
    bodyChar glyph s = some { s with
      tone := if s.tables.options.keyClick then s.tone.request .click else s.tone
      form := (s.form.charPlaced f (foldGlyph s.tables.classes f glyph)).advance
        s.tables.options.insertAtEntry f } := by
  unfold bodyChar
  rw [entry]
  dsimp only
  rw [admitted, Form.placeGlyph_of (Form.entryField_iff.mp entry).1 room]
  dsimp only
  rw [if_neg (by simp), Form.edited_writeFrom]
  cases s.tables.options.keyClick <;> rfl

theorem Form.advance_eq (current : fm.current = some f) (g : Byte) (insertAtEntry : Bool) :
    (fm.charPlaced f g).advance insertAtEntry f =
      if fm.cursor + 1 < f.start + f.length then { fm.charPlaced f g with cursor := fm.cursor + 1 }
      else if f.opts.autoAdvance then (fm.charPlaced f g).moveNext insertAtEntry else fm.charPlaced f g := by
  obtain ⟨inside, _⟩ := Form.offset_lt current
  have before : (fm.charPlaced f g).cursor < f.lastCell ↔ fm.cursor + 1 < f.start + f.length := by
    change fm.cursor < f.start + (f.length - 1) ↔ _
    omega
  unfold Form.advance
  simp only [before]
  rfl

end

/-- Settles O45: the glyph placed, the marks, the tone, the advance. -/
theorem charPlaces : Obligations.CharPlaces := by
  intro s glyph rest f _ canonical opened queued current isEntry own g e admitted room
  have entry : s.form.entryField = some f := Form.entryField_iff.mpr ⟨current, isEntry⟩
  refine ⟨_, Form.readCell_typed canonical current g, ?_⟩
  have char := State.editAction_of opened queued
    (bodyChar_of (s := { s with input := { s.input with typeAhead := rest } }) entry admitted room)
  change Host.Outcome.next (s.editAction _ _) = _
  rw [char, Form.advance_eq (by exact current)]
  rfl

end Sys2Proof.Machine
end

section
/-! PROOFS. The steps of a value, and the edits that are refused. -/

namespace Sys2Proof.Machine

open Sys2Proof

/-! ## Stepping (R77 to R79, R116) -/

section

variable {s : State} {f : Field} {n : NumPart} {v : Int} {up : Bool}

/-- The value that a step goes to, before it is clamped (R77). -/
def NumPart.stepped (n : NumPart) (up : Bool) (v : Int) : Int := if up then v + n.step else v - n.step

/-- The form that an effective step leaves, before the tallies follow (R77 to R79). -/
def Form.stepWritten (fm : Form) (f : Field) (glyphs : List Byte) : Form :=
  { fm.mapRecords (Field.scanned f.tag) with
    cells := (fm.writeContent false f glyphs).cells
    visit := true }

theorem Form.setError_edited (fm : Form) (f : Field) (glyphs : List Byte) :
    ((fm.writeContent false f glyphs).edited f).setError f.tag none = fm.stepWritten f glyphs := by
  have marks : (fun g : Field => if g.tag = f.tag then { g with errorMark := none } else g) ∘
      Field.editedAs f.tag = Field.scanned f.tag := by
    funext g
    by_cases same : g.tag = f.tag <;> simp [Field.editedAs, Field.scanned, same]
  rw [Form.writeContent, Form.edited_writeFrom, Form.setError, Form.mapTag, Form.stepWritten, ← marks,
    ← Form.mapRecords_mapRecords]
  rfl

theorem stepField_of (entry : s.form.entryField = some f) (numeric : f.cls = .numeric n)
    (start : stepStart n f.length (s.form.content false f) = some v) :
    stepField up s = if clampTo n (n.stepped up v) = v then some s
      else some { s with form :=
        (s.form.stepWritten f (canonical n f.length (clampTo n (n.stepped up v)))).recomputeNaming [f.tag] } := by
  unfold stepField
  rw [entry]
  dsimp only
  rw [numeric]
  dsimp only
  rw [start]
  dsimp only
  rw [Form.setError_edited]
  rfl

theorem stepField_of_none (entry : s.form.entryField = some f)
    (none : ∀ n, f.cls = .numeric n → stepStart n f.length (s.form.content false f) = .none) :
    stepField up s = .none := by
  unfold stepField
  rw [entry]
  dsimp only
  split
  case h_1 n numeric => rw [none n numeric]
  all_goals rfl

theorem exec_step (up : Bool) (s : State) :
    exec (if up then .stepUp else .stepDown) s =
      .next (s.editAction (if up then .stepUp else .stepDown) (stepField up)) := by
  cases up <;> rfl

end

/-- Settles O47: the step by its start and its clamped value. -/
theorem stepChangesValue : Obligations.StepChangesValue := by
  intro s up rest f n v _ canonicalStore opened queued current isEntry numeric parsed moved w taken answers
  have entry : s.form.entryField = some f := Form.entryField_iff.mpr ⟨current, isEntry⟩
  have start : stepStart n f.length (s.form.content false f) = some v := by
    unfold stepStart
    obtain value | ⟨empty, rfl⟩ := parsed
    · rw [value]
    · rw [empty]
      rfl
  have answered {t : State} (ran : stepField up { s with input := taken } = some t) : answers t := by
    have exec := (exec_step up s).trans (congrArg _ (State.editAction_of opened queued ran))
    refine ⟨?_, ?_⟩
    all_goals
      rintro rfl
      exact exec
  have step : stepField up { s with input := taken } = _ :=
    stepField_of (s := { s with input := taken }) entry numeric start
  refine ⟨fun same => answered (step.trans (if_pos same)), fun other => ?_⟩
  refine ⟨_, Form.readCell_writeContent canonicalStore (length_le_canonical ..), ?_⟩
  exact answered (step.trans (if_neg other))

/-! ## Edits refused (R97, R112 to R117) -/

section

variable {s : State} {f : Field}

theorem Form.entryField_eq_none {fm : Form} (outside : ∀ f, fm.current = some f → f.kind ≠ .entry) :
    fm.entryField = none :=
  Option.eq_none_iff_forall_ne_some.mpr fun f entry =>
    outside f (Form.entryField_iff.mp entry).1 (Form.entryField_iff.mp entry).2

theorem bodyChar_of_refused {glyph : Byte} (entry : s.form.entryField = some f)
    (refused : admits s.tables.classes f (foldGlyph s.tables.classes f glyph) = false ∨
      (s.form.insert = true ∧ (readCell s.form.cells (f.start + f.length - 1)).glyph ≠ 0)) :
    bodyChar glyph s = none := by
  unfold bodyChar
  rw [entry]
  dsimp only
  split
  case isTrue => rfl
  case isFalse admitted =>
    obtain fails | ⟨insert, full⟩ := refused
    · rw [fails] at admitted
      exact absurd rfl admitted
    · rw [Form.placeGlyph_of_full (Form.entryField_iff.mp entry).1 insert full]

theorem bodyBackspace_of_first (entry : s.form.entryField = some f) (first : s.form.cursor = f.start) :
    bodyBackspace s = none := by
  unfold bodyBackspace
  rw [entry]
  exact if_pos first

end

/-! Outside an ENTRY field every edit and step is refused (R112 step 1, R117). -/

section

variable {s : State} (outside : s.form.entryField = none)

include outside

theorem bodyChar_of_outside (g : Byte) : bodyChar g s = none := by
  unfold bodyChar
  rw [outside]

theorem bodyBackspace_of_outside : bodyBackspace s = none := by
  unfold bodyBackspace
  rw [outside]

theorem bodyDelete_of_outside : bodyDelete s = none := by
  unfold bodyDelete
  rw [outside]

theorem bodyEraseToEnd_of_outside : bodyEraseToEnd s = none := by
  unfold bodyEraseToEnd
  rw [outside]

theorem bodyEraseField_of_outside : bodyEraseField s = none := by
  unfold bodyEraseField
  rw [outside]

theorem stepField_of_outside (up : Bool) : stepField up s = none := by
  unfold stepField
  rw [outside]

end

theorem stepStart_eq_none {n : NumPart} {length : Nat} {content : List Byte}
    (bad : parseNumber n length content = .format ∨ parseNumber n length content = .range) :
    stepStart n length content = none := by
  unfold stepStart
  obtain format | range := bad
  · rw [format]
  · rw [range]

/-- A current field is an ENTRY field, or every edit is refused outside one. -/
theorem Form.entryField_or {fm : Form} {f : Field} (current : fm.current = some f) :
    fm.entryField = some f ∨ fm.entryField = none := by
  by_cases entry : f.kind = .entry
  · exact .inl (Form.entryField_iff.mpr ⟨current, entry⟩)
  · refine .inr (Form.entryField_eq_none fun g current' => ?_)
    rwa [← Option.some.inj (current.symm.trans current')]

/-- Settles O48: each edit, by why its body has no result. -/
theorem editsRefused : Obligations.EditsRefused := by
  intro s c a rest opened queued fm outside edit
  have refuses {body : State → Option State} (arm : exec c s = .next (s.editAction a body))
      (none : body { s with input := { s.input with typeAhead := rest } } = .none) : exec c s = _ :=
    arm.trans (congrArg Host.Outcome.next (State.editAction_of_refused opened queued none))
  obtain ⟨g, rfl, rfl, reason⟩ | ⟨rfl, rfl, reason⟩ | ⟨listed, reason⟩ | ⟨listed, reason⟩ := edit
  · refine refuses (body := bodyChar g) rfl ?_
    obtain outside | ⟨f, current, reason⟩ := reason
    · exact bodyChar_of_outside (by exact Form.entryField_eq_none outside) g
    · obtain entry | none := Form.entryField_or current
      · exact bodyChar_of_refused entry reason
      · exact bodyChar_of_outside (by exact none) g
  · refine refuses (body := bodyBackspace) rfl ?_
    obtain outside | ⟨f, current, first⟩ := reason
    · exact bodyBackspace_of_outside (Form.entryField_eq_none outside)
    · obtain entry | none := Form.entryField_or current
      · exact bodyBackspace_of_first entry first
      · exact bodyBackspace_of_outside none
  · have none := Form.entryField_eq_none reason
    simp only [List.mem_cons, List.not_mem_nil, or_false, Prod.mk.injEq] at listed
    obtain ⟨rfl, rfl⟩ | ⟨rfl, rfl⟩ | ⟨rfl, rfl⟩ := listed
    exacts [refuses rfl (bodyDelete_of_outside none), refuses rfl (bodyEraseToEnd_of_outside none),
      refuses rfl (bodyEraseField_of_outside none)]
  · have none (up : Bool) : stepField up { s with input := { s.input with typeAhead := rest } } = .none := by
      obtain outside | ⟨f, current, reason⟩ := reason
      · exact stepField_of_outside (by exact Form.entryField_eq_none outside) up
      · obtain entry | none := Form.entryField_or current
        · refine stepField_of_none entry fun n numeric => ?_
          obtain other | ⟨m, numeric', bad⟩ := reason
          · exact absurd numeric (other n)
          · cases numeric.symm.trans numeric'
            exact stepStart_eq_none bad
        · exact stepField_of_outside (by exact none) up
    simp only [List.mem_cons, List.not_mem_nil, or_false, Prod.mk.injEq] at listed
    obtain ⟨rfl, rfl⟩ | ⟨rfl, rfl⟩ := listed
    exacts [refuses rfl (none true), refuses rfl (none false)]

end Sys2Proof.Machine
end

section
/-! PROOFS. CANCEL, RESET, INSERT-TOGGLE, what is not due, and SUBMIT. -/

namespace Sys2Proof.Machine

open Sys2Proof

section

variable {s : State} {rest : List QueueEntry}

/-! ## What is not due (R95, log 1) -/

theorem State.takeEntry_eq_none {e : QueueEntry}
    (early : s.input.entry ≠ .openEntry ∨ s.input.typeAhead.head? ≠ some e) : s.takeEntry e = none := by
  rw [Option.eq_none_iff_forall_ne_some]
  intro t taken
  obtain ⟨rest, opened, queued, _⟩ := State.takeEntry_some taken
  obtain shut | other := early
  · exact shut opened
  · exact other (by rw [queued, List.head?_cons])

theorem State.editAction_of_untaken {a : Action} (untaken : s.takeEntry (.action a) = none)
    (body : State → Option State) : s.editAction a body = s := by
  rw [State.editAction, untaken]

theorem State.moveAction_of_untaken {a : Action} (untaken : s.takeEntry (.action a) = none) (push : Bool)
    (goal : Form → Nat) : s.moveAction a push goal = s := by
  rw [State.moveAction, untaken]

theorem exec_submit_of_unclaimed {key : Byte} (unclaimed : s.takeClaim (.submit key) = none) :
    exec (.submit key) s = .next s := by
  change execSubmit key s = _
  rw [execSubmit, unclaimed]

theorem exec_cancel_of_unclaimed (unclaimed : s.takeClaim .cancel = none) : exec .cancel s = .next s := by
  change execCancel s = _
  rw [execCancel, unclaimed]

theorem State.takeClaim_of_busy (busy : s.line.reply ≠ none) (a : Action) : s.takeClaim a = none :=
  if_pos (Option.isSome_iff_ne_none.mpr busy)

theorem State.takeClaim_of_untaken {a : Action} (untaken : s.takeEntry (.action a) = none) :
    s.takeClaim a = none := by
  rw [State.takeClaim, untaken]
  exact ite_self _

theorem State.takeClaim_of {a : Action} (opened : s.input.entry = .openEntry)
    (queued : s.input.typeAhead = .action a :: rest) (free : s.line.reply = none) :
    s.takeClaim a = some { s with input := { s.input with typeAhead := rest } } := by
  rw [State.takeClaim, State.takeEntry_of opened queued, free]
  rfl

/-! ## A submission built and accepted (R96, R147) -/

/-- The input after a submit has been accepted, by the type-ahead option (R96). -/
def Input.accepted (i : Input) (keep : Bool) : Input :=
  { i with
    entry := .await
    typeAhead := if keep then i.typeAhead else []
    scans := if keep then i.scans else [] }

theorem State.submitAccepted_eq (s : State) :
    s.submitAccepted = { s with input := s.input.accepted s.tables.options.typeAhead } := by
  unfold State.submitAccepted Input.accepted
  cases s.tables.options.typeAhead <;> rfl

theorem State.transmit_with_input (s : State) (i : Input) :
    State.transmit { s with input := i } = { s.transmit with input := i } := by
  unfold State.transmit
  change (if s.started then _ else _) = _
  cases s.started <;> rfl

theorem State.claimReply_submitAccepted (s : State) (bytes : List Byte) :
    (s.claimReply bytes).submitAccepted = State.transmit { s with
      input := s.input.accepted s.tables.options.typeAhead
      line := { s.line with reply := some bytes } } := by
  have input : (s.claimReply bytes).input.accepted (s.claimReply bytes).tables.options.typeAhead =
      s.input.accepted s.tables.options.typeAhead := by rw [State.claimReply_tables, State.claimReply_input]
  rw [State.submitAccepted_eq, input]
  exact (State.transmit_with_input { s with line := { s.line with reply := some bytes } } _).symm

/-! ## CANCEL and RESET (R94, R155) -/

theorem exec_cancel (opened : s.input.entry = .openEntry) (queued : s.input.typeAhead = .action .cancel :: rest)
    (free : s.line.reply = none) : exec .cancel s =
      .next (State.transmit { s with
        input := Input.accepted { s.input with typeAhead := rest } s.tables.options.typeAhead
        line := { s.line with reply := some (s.reportBytes 0x81 0xFF s.clock 0 []) } }) := by
  change execCancel s = _
  rw [execCancel, State.takeClaim_of opened queued free]
  exact congrArg _ (State.claimReply_submitAccepted _ _)

theorem exec_reset_of {t : State} (taken : s.takeEntry (.action .reset) = some t) : exec .reset s = .next t := by
  change execReset s = _
  rw [execReset, taken, Option.getD_some]

theorem exec_reset_of_untaken (untaken : s.takeEntry (.action .reset) = none) : exec .reset s = .next s := by
  change execReset s = _
  rw [execReset, untaken, Option.getD_none]

theorem exec_back_of_untaken (untaken : s.takeEntry (.action .back) = none) : exec .back s = .next s := by
  change execBack s = _
  rw [execBack, untaken]

theorem exec_scanPlacement_of_untaken (untaken : s.takeEntry .marker = none) :
    exec .scanPlacement s = .next s := by
  change execScanPlacement s = _
  rw [execScanPlacement, untaken]

end

/-- Settles O49: what is carried out, and what waits or is not due. -/
theorem cancelResetInsertToggle : Obligations.CancelResetInsertToggle := by
  refine ⟨fun s rest opened => ⟨fun queued free => ?_,
    fun queued => exec_reset_of (State.takeEntry_of opened queued),
    fun queued => congrArg Host.Outcome.next (State.editAction_of (body := bodyInsertToggle) opened queued rfl)⟩,
    fun s key busy => ⟨exec_submit_of_unclaimed (State.takeClaim_of_busy busy _),
      exec_cancel_of_unclaimed (State.takeClaim_of_busy busy _)⟩,
    fun s c a glyph key listed early => ?_,
    fun s early => exec_scanPlacement_of_untaken (State.takeEntry_eq_none early)⟩
  · rw [exec_cancel opened queued free, State.reportBytes]
    simp only [List.append_nil]
    rfl
  · have untaken := State.takeEntry_eq_none early
    have edit (body : State → Option State) : Host.Outcome.next (s.editAction a body) =
        (.next s : Host.Outcome State Fault Refusal) := congrArg _ (State.editAction_of_untaken untaken body)
    have move (push : Bool) (goal : Form → Nat) : Host.Outcome.next (s.moveAction a push goal) =
        (.next s : Host.Outcome State Fault Refusal) := congrArg _ (State.moveAction_of_untaken untaken push goal)
    have unclaimed := State.takeClaim_of_untaken untaken
    simp only [List.mem_cons, List.not_mem_nil, or_false, Prod.mk.injEq] at listed
    rcases listed with ⟨rfl, rfl⟩ | ⟨rfl, rfl⟩ | ⟨rfl, rfl⟩ | ⟨rfl, rfl⟩ | ⟨rfl, rfl⟩ | ⟨rfl, rfl⟩ | ⟨rfl, rfl⟩ |
      ⟨rfl, rfl⟩ | ⟨rfl, rfl⟩ | ⟨rfl, rfl⟩ | ⟨rfl, rfl⟩ | ⟨rfl, rfl⟩ | ⟨rfl, rfl⟩ | ⟨rfl, rfl⟩ | ⟨rfl, rfl⟩ |
      ⟨rfl, rfl⟩ | ⟨rfl, rfl⟩ | ⟨rfl, rfl⟩ | ⟨rfl, rfl⟩ | ⟨rfl, rfl⟩
    exacts [edit _, exec_submit_of_unclaimed unclaimed, move _ _, move _ _, move _ _, move _ _,
      exec_back_of_untaken untaken, move _ _, move _ _, move _ _, move _ _, edit _, edit _, edit _, edit _, edit _,
      edit _, edit _, exec_cancel_of_unclaimed unclaimed, exec_reset_of_untaken untaken]

end Sys2Proof.Machine
end

section
/-! PROOFS. SUBMIT: the sweep, the submission, and the field that stops it. -/

namespace Sys2Proof.Machine

open Sys2Proof

/-! ## The sweep (R149) -/

section

variable {fm : Form} {f : Field}

/-- A mandatory field without content (R149). -/
def Form.Missing (fm : Form) (f : Field) : Prop :=
  f.opts.mandatory = true ∧ ∀ g ∈ fm.content false f, g = 0x00 ∨ g = 0x20

/-- A fill-whole field that is filled in part (R149). -/
def Form.Partly (fm : Form) (f : Field) : Prop :=
  (f.cls = .alpha ∨ ∃ r, f.cls = .code r) ∧ f.opts.fillWhole = true ∧
    isPartial f.length (fm.content false f) = true

theorem isEmptyContent_iff_blank {l : List Byte} : isEmptyContent l = true ↔ ∀ g ∈ l, g = 0x00 ∨ g = 0x20 := by
  simp only [isEmptyContent, isBlank, List.all_eq_true, Bool.or_eq_true, decide_eq_true_iff]
  rfl

theorem Form.missing_iff :
    fm.Missing f ↔ (f.opts.mandatory && isEmptyContent (fm.content false f)) = true := by
  rw [Form.Missing, Bool.and_eq_true, isEmptyContent_iff_blank]

theorem Form.sweepFault_of_mark (marked : f.errorMark ≠ none) : fm.sweepFault f = f.errorMark := by
  unfold Form.sweepFault
  cases mark : f.errorMark with
  | none => exact absurd mark marked
  | some e => rfl

theorem Form.sweepFault_of_missing (unmarked : f.errorMark = none) (missing : fm.Missing f) :
    fm.sweepFault f = some .missing := by
  unfold Form.sweepFault
  rw [unmarked]
  exact if_pos (Form.missing_iff.mp missing)

theorem Form.sweepFault_of_partly (unmarked : f.errorMark = none) (given : ¬fm.Missing f) (partly : fm.Partly f) :
    fm.sweepFault f = some .incomplete := by
  obtain ⟨cls, whole, part⟩ := partly
  unfold Form.sweepFault
  rw [unmarked]
  refine (if_neg (mt Form.missing_iff.mpr given)).trans ?_
  obtain alpha | ⟨r, code⟩ := cls
  · simp only [alpha, whole, part, Bool.and_self, if_true]
  · simp only [code, whole, part, Bool.and_self, if_true]

theorem Form.sweepFault_of_passes (unmarked : f.errorMark = none) (given : ¬fm.Missing f)
    (complete : ¬fm.Partly f) : fm.sweepFault f = none := by
  unfold Form.sweepFault
  rw [unmarked]
  refine (if_neg (mt Form.missing_iff.mpr given)).trans ?_
  have ends (cls : f.cls = .alpha ∨ ∃ r, f.cls = .code r) :
      ¬(f.opts.fillWhole && isPartial f.length (fm.content false f)) = true := by
    rw [Bool.and_eq_true]
    exact fun ⟨whole, part⟩ => complete ⟨cls, whole, part⟩
  split
  case h_1 alpha => exact if_neg (ends (.inl alpha))
  case h_2 r code => exact if_neg (ends (.inr ⟨r, code⟩))
  all_goals rfl

/-- A field fails the sweep by its mark, or by its content (R149). -/
theorem Form.sweepFault_isSome_iff :
    (fm.sweepFault f).isSome = true ↔ f.errorMark ≠ none ∨ fm.Missing f ∨ fm.Partly f := by
  by_cases unmarked : f.errorMark = none
  case neg =>
    rw [Form.sweepFault_of_mark unmarked, Option.isSome_iff_ne_none]
    exact ⟨.inl, fun _ => unmarked⟩
  by_cases missing : fm.Missing f
  case pos =>
    rw [Form.sweepFault_of_missing unmarked missing]
    exact ⟨fun _ => .inr (.inl missing), fun _ => rfl⟩
  by_cases partly : fm.Partly f
  case pos =>
    rw [Form.sweepFault_of_partly unmarked missing partly]
    exact ⟨fun _ => .inr (.inr partly), fun _ => rfl⟩
  rw [Form.sweepFault_of_passes unmarked missing partly]
  simp [unmarked, missing, partly]

theorem Form.sweepStop_eq_none (passes : ∀ f ∈ fm.eligible, ¬(f.errorMark ≠ none ∨ fm.Missing f ∨ fm.Partly f)) :
    fm.sweepStop = none :=
  List.find?_eq_none.mpr fun f listed => mt Form.sweepFault_isSome_iff.mp (passes f listed)

theorem Form.sweepStop_eq_some {passed others : List Field} (sweep : fm.eligible = passed ++ f :: others)
    (passes : ∀ g ∈ passed, ¬(g.errorMark ≠ none ∨ fm.Missing g ∨ fm.Partly g))
    (fails : f.errorMark ≠ none ∨ fm.Missing f ∨ fm.Partly f) : fm.sweepStop = some f := by
  rw [Form.sweepStop, sweep, List.find?_append, List.find?_eq_none.mpr fun g listed =>
    mt Form.sweepFault_isSome_iff.mp (passes g listed), Option.none_or, List.find?_cons_of_pos]
  exact Form.sweepFault_isSome_iff.mpr fails

end

/-! ## SUBMIT (R148 to R154) -/

section

variable {s : State} {key : Byte} {rest : List QueueEntry}

theorem exec_submit (opened : s.input.entry = .openEntry) (queued : s.input.typeAhead = .action (.submit key) :: rest)
    (free : s.line.reply = none) {t : State} {passed : Bool}
    (ran : State.submitForm { s with input := { s.input with typeAhead := rest } } key = (t, passed)) :
    exec (.submit key) s = .next (if passed then t.submitAccepted else t.keyRefused) := by
  change execSubmit key s = _
  rw [execSubmit, State.takeClaim_of opened queued free]
  dsimp only
  rw [ran]

theorem State.submitForm_of_passes (passes : s.form.exitProcess.sweepStop = none) : s.submitForm key =
    (State.buildReport { s with form := s.form.exitProcess } 0x81 key s.clock, true) := by
  unfold State.submitForm
  dsimp only
  rw [passes]

theorem State.submitForm_of_stop {f : Field} (stop : s.form.exitProcess.sweepStop = some f) : s.submitForm key =
    ({ s with form := s.form.exitProcess.sweepRefused s.tables.options.insertAtEntry f }, false) := by
  unfold State.submitForm
  dsimp only
  rw [stop]

end

/-- Settles O50: the sweep passed, or stopped at its first failing field. -/
theorem submitSweepsAndBuilds : Obligations.SubmitSweepsAndBuilds := by
  intro s key rest opened queued free out sweep missing partly fails carried
  have sweeps : out.eligible = sweep := out.eligible_eq_filter
  have reported : out.reported = carried := by
    refine congrArg (fun p => out.active.filter p) (funext fun f => ?_)
    rw [Form.reachable_eq_all]
  refine ⟨fun passes => ?_, fun passed f others split passes => ?_⟩
  · have stop : out.sweepStop = none := Form.sweepStop_eq_none (sweeps ▸ passes)
    rw [exec_submit opened queued free (State.submitForm_of_passes stop), if_pos rfl, State.buildReport,
      State.claimReply_submitAccepted]
    dsimp only
    rw [reported, Form.clearCollisions_eq, State.reportBytes]
    dsimp only
    rw [Form.exitProcess_cursor]
    rfl
  · intro refused marked
    have refuses (fail : fails f) {fm : Form} (mark : (if f.errorMark.isSome then out
        else (out.setError f.tag (out.sweepFault f)).recomputeNaming [f.tag]) = fm) :
        exec (.submit key) s = .next (refused fm) := by
      have stop : out.sweepStop = some f := Form.sweepStop_eq_some (sweeps.trans split) passes fail
      rw [exec_submit opened queued free (State.submitForm_of_stop stop), if_neg Bool.false_ne_true,
        State.keyRefused_eq, Form.sweepRefused]
      dsimp only
      rw [mark]
    refine ⟨fun mark => refuses (.inl mark) (if_pos (Option.isSome_iff_ne_none.mpr mark)),
      fun unmarked isMissing => refuses (.inr (.inl isMissing)) ?_,
      fun unmarked given isPartly => refuses (.inr (.inr isPartly)) ?_⟩
    · rw [Form.sweepFault_of_missing unmarked isMissing, unmarked]
      rfl
    · rw [Form.sweepFault_of_partly unmarked given isPartly, unmarked]
      rfl

end Sys2Proof.Machine
end

section
/-! PROOFS. Scan placement: the match, the target, the refusals and the submit. -/

namespace Sys2Proof.Machine

open Sys2Proof

/-! ## The match of a scan (R126) -/

theorem Route.recognises_iff {r : Route} {scan : List Byte} : r.recognises scan = true ↔
    r.second.enable = true ∧ r.first.lead <+: scan ∧ r.first.shortest ≤ scan.length ∧
      scan.length ≤ r.first.longest := by
  simp only [Route.recognises, Bool.and_eq_true, List.isPrefixOf_iff_prefix, decide_eq_true_iff, and_assoc]

theorem Tables.matchScan_of_first {t : Tables} {scan : List Byte} {passed others : List Route} {r : Route}
    (routes : t.routes = passed ++ r :: others) (fails : ∀ q ∈ passed, ¬q.recognises scan = true)
    (sees : r.recognises scan = true) : t.matchScan scan = r.second := by
  rw [Tables.matchScan, routes, List.find?_append, List.find?_eq_none.mpr fails, Option.none_or,
    List.find?_cons_of_pos (p := fun q : Route => q.recognises scan) sees]

theorem Tables.matchScan_of_none {t : Tables} {scan : List Byte}
    (fails : ∀ r ∈ t.routes, ¬r.recognises scan = true) : t.matchScan scan = plainPlace := by
  rw [Tables.matchScan, List.find?_eq_none.mpr fails]

/-! ## The target and the candidate (R128 to R130) -/

section

variable {fm : Form} {target : Nat}

theorem Form.scanTarget_of_fit {f : Field}
    (found : (if target = 0 then fm.current else fm.activeTag target) = some f)
    (fit : f.kind = .entry ∧ (fm.overlay.all fun o => o.window.holds f) = true) :
    fm.scanTarget target = some f := by
  unfold Form.scanTarget
  dsimp only
  rw [found]
  exact if_pos (by rw [Form.reachable_eq_all, fit.2, fit.1]; rfl)

theorem Form.scanTarget_of_unfit
    (unfit : ∀ f, (if target = 0 then fm.current else fm.activeTag target) = some f →
      ¬(f.kind = .entry ∧ (fm.overlay.all fun o => o.window.holds f) = true)) :
    fm.scanTarget target = none := by
  unfold Form.scanTarget
  dsimp only
  split
  case h_2 => rfl
  case h_1 f found =>
    refine if_neg fun fit => unfit f found ?_
    rw [Bool.and_eq_true, decide_eq_true_iff, Form.reachable_eq_all] at fit
    exact fit

theorem candidatePasses_iff {classes : List CharClass} {f : Field} {kept : List Byte} :
    candidatePasses classes f kept = true ↔
      (∀ g ∈ kept, admits classes f g = true) ∧ exitTest f (candidateText f kept) = none := by
  rw [candidatePasses, Bool.and_eq_true, List.all_eq_true, Option.isNone_iff_eq_none]

end

/-! ## The placement (R127 to R133) -/

section

variable {s : State} {scan : List Byte} {waiting : List (List Byte)} {rest : List QueueEntry}

/-- The state from which a scan and its marker have been taken. -/
def State.scanTaken (s : State) (rest : List QueueEntry) (waiting : List (List Byte)) : State :=
  { s with input := { s.input with typeAhead := rest, scans := waiting } }

theorem exec_scanPlacement (opened : s.input.entry = .openEntry) (queued : s.input.typeAhead = .marker :: rest)
    (scans : s.input.scans = scan :: waiting) : exec .scanPlacement s =
      .next (if (s.tables.matchScan scan).key ≠ 0 ∧ s.line.reply ≠ none then s
        else (s.scanTaken rest waiting).placeScan (s.tables.matchScan scan) scan) := by
  have waits : ((s.tables.matchScan scan).key ≠ 0 && s.line.reply.isSome) = true ↔
      (s.tables.matchScan scan).key ≠ 0 ∧ s.line.reply ≠ none := by
    rw [Bool.and_eq_true, decide_eq_true_iff, Option.isSome_iff_ne_none]
  change execScanPlacement s = _
  unfold execScanPlacement
  rw [State.takeEntry_of opened queued, scans]
  dsimp only
  simp only [waits]
  rfl

theorem State.placeScan_of_untargeted {r : RoutePlace} (none : s.form.scanTarget r.target = .none) :
    s.placeScan r scan = s.scanRefused := by
  rw [State.placeScan, none]

/-- The state in which a passing candidate has been placed (R131, R132). -/
def State.scanPut (s : State) (r : RoutePlace) (f : Field) (kept : List Byte) : State :=
  { s with
    form := s.form.placeScan s.tables.options.insertAtEntry r f kept
    tone := s.tone.request .good }

theorem State.placeScan_of_target {r : RoutePlace} {f : Field} (target : s.form.scanTarget r.target = some f) :
    let kept := keptCharacters s.tables.classes r f scan
    s.placeScan r scan =
      if candidatePasses s.tables.classes f kept = true then
        if r.key = 0 then s.scanPut r f kept else (s.scanPut r f kept).submitFromScan r.key
      else s.scanRefused := by
  rw [State.placeScan, target]
  rfl

/-- The submit of a placement, beside the SUBMIT of the same key: the same but for a refusal, which refuses no
key (R133). -/
theorem State.submitFromScan_of {key : Byte} {t : State} (opened : s.input.entry = .openEntry)
    (free : s.line.reply = none)
    (ran : exec (.submit key)
      { s with input := { s.input with typeAhead := .action (.submit key) :: s.input.typeAhead } } = .next t) :
    (t.input.entry = .await → s.submitFromScan key = t) ∧
      (t.input.entry ≠ .await → s.submitFromScan key = { t with input := s.input }) := by
  let queued : State :=
    { s with input := { s.input with typeAhead := .action (.submit key) :: s.input.typeAhead } }
  rw [State.submitFromScan]
  cases stop : s.form.exitProcess.sweepStop with
  | none =>
    have passes : s.submitForm key = _ := State.submitForm_of_passes stop
    rw [exec_submit (s := queued) opened rfl free passes, if_pos rfl] at ran
    have accepted := Host.Outcome.next.inj ran
    rw [passes, if_pos rfl]
    refine ⟨fun _ => accepted, fun other => absurd ?_ other⟩
    rw [← accepted, State.submitAccepted_eq]
    rfl
  | some f =>
    have stops : s.submitForm key = _ := State.submitForm_of_stop stop
    rw [exec_submit (s := queued) opened rfl free stops, if_neg Bool.false_ne_true] at ran
    have refused := Host.Outcome.next.inj ran
    rw [State.keyRefused_eq] at refused
    rw [stops, if_neg Bool.false_ne_true, ← refused]
    refine ⟨fun awaits => ?_, fun _ => rfl⟩
    dsimp only at awaits
    split at awaits
    case isTrue => cases opened.symm.trans awaits
    case isFalse => cases awaits

end

/-- Settles O51: the match, then each way that a placement goes. -/
theorem scanPlaced : Obligations.ScanPlaced := by
  refine ⟨fun t scan => ?_, fun s scan waiting rest opened queued scans => ?_⟩
  · intro sees
    have seen (r : Route) : r.recognises scan = true ↔ sees r := Route.recognises_iff
    refine ⟨fun passed r others routes fails holds => ?_, fun fails => ?_⟩
    · exact Tables.matchScan_of_first routes (fun q listed => mt (seen q).mp (fails q listed)) ((seen r).mpr holds)
    · rw [Tables.matchScan_of_none fun r listed => mt (seen r).mp (fails r listed)]
      exact ⟨rfl, rfl, rfl, rfl, rfl⟩
  · intro r taken refused target fit
    have ran := exec_scanPlacement opened queued scans
    refine ⟨fun keyed busy => ran.trans (congrArg _ (if_pos ⟨keyed, busy⟩)), fun due => ?_⟩
    have goes : exec .scanPlacement s = .next (taken.placeScan r scan) :=
      ran.trans (congrArg _ (if_neg fun both => due.elim both.1 both.2))
    refine ⟨fun unfit => ?_, fun f found fits => ?_⟩
    · rw [goes, State.placeScan_of_untargeted (s := taken) (Form.scanTarget_of_unfit unfit)]
      rfl
    · intro stripped kept candidate passes placed
      have tested : candidatePasses s.tables.classes f kept = true ↔ passes := candidatePasses_iff
      have place : taken.placeScan r scan = _ :=
        State.placeScan_of_target (s := taken) (Form.scanTarget_of_fit (by exact found) fits)
      rw [goes]
      refine ⟨fun fails => congrArg _ (place.trans (if_neg (mt tested.mp fails))),
        fun holds plain => congrArg _ (place.trans ((if_pos (tested.mpr holds)).trans (if_pos plain))),
        fun holds keyed t submitted => ?_⟩
      have submits : taken.placeScan r scan = State.submitFromScan placed r.key :=
        place.trans ((if_pos (tested.mpr holds)).trans (if_neg keyed))
      obtain ⟨accepts, refuses⟩ :=
        State.submitFromScan_of (s := placed) opened (due.resolve_left keyed) submitted
      rw [submits]
      exact ⟨fun awaits => congrArg _ (accepts awaits), fun other => congrArg _ (refuses other)⟩

end Sys2Proof.Machine
end

section
/-! PROOFS. The rows of the display port, and how a cell is rendered. -/

namespace Sys2Proof.Machine

open Sys2Proof

/-! ## The rows of the port (R11) -/

section

variable {s : State}

/-- The state with the port at another place of its row. -/
def State.portAt (s : State) (column : Option Nat) (row : Nat) (sent : List SentCell) : State :=
  { s with display := { s.display with column := column, row := row, sent := sent } }

/-- The cell of a column of a row as it is sent. -/
def State.rowCell (s : State) (column : Nat) : SentCell := s.renderCell (s.display.row * 96 + column)

theorem State.sendCell_of_inner {c : Nat} (column : s.display.column = some c) (inner : c + 1 < 96) :
    s.sendCell = s.portAt (some (c + 1)) s.display.row (s.display.sent ++ [s.rowCell c]) := by
  rw [State.sendCell_of_some column, Display.cellSent]
  exact congrArg (fun d => { s with display := d }) (if_pos inner)

theorem State.sendCell_of_last {c : Nat} (column : s.display.column = some c) (last : 96 ≤ c + 1) :
    s.sendCell = s.portAt none (nextRow s.display.row) (s.display.sent ++ [s.rowCell c]) := by
  rw [State.sendCell_of_some column, Display.cellSent]
  exact congrArg (fun d => { s with display := d }) (if_neg (Nat.not_lt.mpr last))

/-- The cells of a row from a column on go out, the last with the row counter (R11 item 3). -/
theorem State.sendCells_of_rest {n c : Nat} (column : s.display.column = some c) (rest : c + (n + 1) = 96) :
    s.sendCells (n + 1) = s.portAt none (nextRow s.display.row)
      (s.display.sent ++ (List.range' c (n + 1)).map s.rowCell) := by
  induction n generalizing s c with
  | zero =>
    rw [State.sendCells, State.sendCell_of_last column (by omega)]
    rfl
  | succ n ih =>
    rw [State.sendCells, State.sendCell_of_inner column (by omega), ih rfl (by omega),
      List.range'_succ (s := c), List.map_cons]
    exact congrArg (s.portAt none (nextRow s.display.row)) (List.append_cons ..).symm

theorem exec_displayRowEnd {c : Nat} (column : s.display.column = some c) :
    exec .displayRowEnd s = .next (s.sendCells (96 - c)) := by
  change execDisplayRowEnd s = _
  rw [execDisplayRowEnd, column]

end

/-- Settles O53: the start, the end and the withdrawal of a row. -/
theorem displayRows : Obligations.DisplayRows := by
  refine ⟨fun s released between => ?_, fun s c column inRow row => ?_, fun s between => ?_, fun s => rfl⟩
  · change execDisplayRowStart s = _
    rw [execDisplayRowStart, State.alive_of_released released, between]
  · obtain ⟨n, rest⟩ : ∃ n, 96 - c = n + 1 := ⟨95 - c, by omega⟩
    rw [exec_displayRowEnd column, rest, State.sendCells_of_rest column (by omega), nextRow_eq row,
      List.range'_eq_map_range, List.map_map]
    rfl
  · change execDisplayRowEnd s = _
    rw [execDisplayRowEnd, between]

/-! ## Rendering (R7 to R10, R13) -/

section

variable {fm : Form} {f : Field} {p : Nat}

theorem Form.owner_eq_writeOwner (fm : Form) (p : Nat) : fm.owner p = fm.writeOwner p := by
  unfold Form.owner Form.writeOwner
  cases fm.fieldAt p <;> rfl

theorem Field.showsError_iff : f.showsError = true ↔
    f.errorMark ≠ none ∨ (f.kind = .tally ∧ (f.incomplete = true ∨ f.saturated = true)) := by
  simp only [Field.showsError, Bool.or_eq_true, Bool.and_eq_true, decide_eq_true_iff, Option.isSome_iff_ne_none]

theorem Form.inCurrent_iff (owned : fm.writeOwner p = some f) : fm.inCurrent p = true ↔
    (fm.fieldAt p).isSome ∧ fm.current.map (·.tag) = some f.tag := by
  unfold Form.inCurrent
  unfold Form.writeOwner at owned
  cases field : fm.fieldAt p with
  | none => exact ⟨nofun, fun inside => absurd inside.1 nofun⟩
  | some g =>
    rw [field] at owned
    cases owned
    cases fm.current with
    | none => exact ⟨nofun, fun inside => absurd inside.2 nofun⟩
    | some c =>
      exact ⟨fun same => ⟨rfl, congrArg some (eq_of_beq same).symm⟩,
        fun inside => beq_iff_eq.mpr (Option.some.inj inside.2).symm⟩

theorem Form.governingNumber_unowned (free : fm.writeOwner p = none) :
    fm.governingNumber p = (readCell fm.cells p).style := by
  rw [Form.governingNumber, Form.owner_eq_writeOwner, free]

theorem Form.governingNumber_owned (owned : fm.writeOwner p = some f) : fm.governingNumber p =
    f.alert.elim (if f.showsError then f.error else if fm.inCurrent p then f.edit else (readCell fm.cells p).style)
      (·.style) := by
  rw [Form.governingNumber, Form.owner_eq_writeOwner, owned]
  dsimp only
  cases f.alert <;> rfl

end

section

variable {s : State} {p : Nat}

theorem State.glyphSent_eq (s : State) (p : Nat) : s.glyphSent p =
    if (∃ f, s.form.writeOwner p = some f ∧ f.opts.hidden = true) ∨ (readCell s.form.cells p).glyph = 0 ∨
      ((s.tables.style (s.form.governingNumber p)).blink = true ∧ s.display.phase = .blanked) then 0x20
    else (readCell s.form.cells p).glyph := by
  have hidden : (s.form.owner p).any (·.opts.hidden) = true ↔
      ∃ f, s.form.writeOwner p = some f ∧ f.opts.hidden = true := by
    rw [Form.owner_eq_writeOwner, Option.any_eq_true]
  rw [State.glyphSent]
  simp only [hidden]
  by_cases isHidden : ∃ f, s.form.writeOwner p = some f ∧ f.opts.hidden = true
  · exact (if_pos isHidden).trans (if_pos (Or.inl isHidden)).symm
  rw [if_neg isHidden]
  by_cases isNull : (readCell s.form.cells p).glyph = 0
  · exact (if_pos isNull).trans (if_pos (Or.inr (Or.inl isNull))).symm
  refine (if_neg isNull).trans ?_
  simp only [isHidden, isNull, false_or]
  rfl

theorem State.cursorDrawn_iff : s.cursorDrawn p = true ↔
    (s.input.entry = .openEntry ∨ s.input.entry = .fault) ∧ p = s.form.cursor := by
  simp [State.cursorDrawn]

/-- The underline and the reverse that are sent, the cursor applied (R10). -/
def State.sentUnderline (s : State) (p : Nat) : Bool :=
  (s.tables.style (s.form.governingNumber p)).underline || (s.cursorDrawn p && !s.form.insert)

def State.sentReverse (s : State) (p : Nat) : Bool :=
  if s.cursorDrawn p && s.form.insert then !(s.tables.style (s.form.governingNumber p)).reverse
  else (s.tables.style (s.form.governingNumber p)).reverse

theorem Intensity.code_le (i : Intensity) : i.code ≤ 2 := by
  cases i <;> decide

/-- The code sent for a cell holds the intensity, the underline and the reverse apart (R13). -/
theorem sentCode_parts {i : Nat} (low : i ≤ 2) (underline reverse : Bool) :
    let code := i + (if underline then 4 else 0) + (if reverse then 8 else 0)
    code % 4 = i ∧ (code / 4 % 2 = 1 ↔ underline = true) ∧ (code / 8 = 1 ↔ reverse = true) := by
  intro code
  cases underline
  all_goals
    cases reverse
    all_goals
      simp only [code, if_true, if_false, Bool.false_eq_true, iff_true, iff_false]
      omega

theorem State.toNat_codeSent (s : State) (p : Nat) : (s.codeSent p).toNat =
    (s.tables.style (s.form.governingNumber p)).intensity.code + (if s.sentUnderline p then 4 else 0) +
      (if s.sentReverse p then 8 else 0) := by
  have low := Intensity.code_le (s.tables.style (s.form.governingNumber p)).intensity
  refine (BitVec.toNat_ofNat ..).trans (Nat.mod_eq_of_lt ?_)
  split_ifs <;> omega

end

/-- Settles O54: the style by the owner, the glyph, the code, the lamps. -/
theorem cellsRendered : Obligations.CellsRendered := by
  intro s p own owner style drawn
  have isDrawn : s.cursorDrawn p = true ↔ drawn := State.cursorDrawn_iff
  refine ⟨Form.governingNumber_unowned, fun f owned => ?_, s.glyphSent_eq p, ?_, ?_, ?_, rfl⟩
  · rw [Form.governingNumber_owned owned]
    refine ⟨fun a alert => ?_, fun quiet => ⟨fun shows => ?_, fun unmarked whole => ?_⟩⟩
    · rw [alert, Option.elim_some]
    · rw [quiet, Option.elim_none, if_pos (Field.showsError_iff.mpr shows)]
    · have clear : ¬f.showsError = true := fun shows => (Field.showsError_iff.mp shows).elim (· unmarked) whole
      rw [quiet, Option.elim_none, if_neg clear]
      simp only [Form.inCurrent_iff owned]
      rfl
  · intro code
    have low := Intensity.code_le style.intensity
    have value : code = style.intensity.code + (if s.sentUnderline p then 4 else 0) +
      (if s.sentReverse p then 8 else 0) := s.toNat_codeSent p
    have underline : s.sentUnderline p = true ↔ style.underline = true ∨ (drawn ∧ s.form.insert = false) := by
      rw [State.sentUnderline, Bool.or_eq_true, Bool.and_eq_true, isDrawn, Bool.not_eq_true']
      rfl
    have reverse : s.sentReverse p = true ↔
        if drawn ∧ s.form.insert = true then style.reverse = false else style.reverse = true := by
      rw [State.sentReverse]
      simp only [Bool.and_eq_true, isDrawn]
      split
      · rw [Bool.not_eq_true']
        rfl
      · rfl
    obtain ⟨intensity, underlined, reversed⟩ := sentCode_parts low (s.sentUnderline p) (s.sentReverse p)
    rw [← underline, ← reverse, value]
    refine ⟨intensity.trans ?_, underlined, reversed⟩
    cases style.intensity <;> rfl
  · unfold State.lampWait
    cases s.input.entry <;> simp [EntryState.isHeld]
  · simp [State.lampFault]

end Sys2Proof.Machine
end

section
/-! PROOFS. The parse of NUMERIC content by its cases, and the canonical form. -/

namespace Sys2Proof.Machine

open Sys2Proof

/-! ## Blanks set aside (R66) -/

theorem trimBoth_of_ends {lead body tail : List Byte} (blank : ∀ b ∈ lead ++ tail, b = 0x00 ∨ b = 0x20)
    (ends : ∀ b, body.head? = some b ∨ body.getLast? = some b → b ≠ 0x00 ∧ b ≠ 0x20) :
    trimBoth (lead ++ body ++ tail) = body := by
  have leads : ∀ b ∈ lead, isBlank b = true := fun b listed =>
    (isBlank_iff b).mpr (blank b (List.mem_append_left _ listed))
  have tails : ∀ b ∈ tail, b = 0x00 ∨ b = 0x20 := fun b listed => blank b (List.mem_append_right _ listed)
  rw [trimBoth, List.append_assoc, List.dropWhile_append_of_pos leads]
  cases body with
  | nil =>
    rw [List.nil_append, List.dropWhile_eq_nil_iff.mpr fun b listed => (isBlank_iff b).mpr (tails b listed)]
    rfl
  | cons b rest =>
    have shown : ¬isBlank b = true := fun isBlank =>
      ((isBlank_iff b).mp isBlank).elim (ends b (.inl rfl)).1 (ends b (.inl rfl)).2
    rw [List.cons_append, List.dropWhile_cons_of_neg shown, ← List.cons_append]
    exact trimEnd_append_of_blank tails fun c last => ends c (.inr last)

/-! ## A number spelled out (R66, R67) -/

/-- The body of a content is a number: a minus sign on a signed field, digits, and at most one point. -/
def Spelled (signed negative : Bool) (whole fraction body : List Byte) : Prop :=
  (negative = true → signed = true) ∧ whole ++ fraction ≠ [] ∧ (∀ b ∈ whole ++ fraction, isDigit b = true) ∧
    (body = (if negative then [0x2D] else []) ++ whole ++ 0x2E :: fraction ∨
      (fraction = [] ∧ body = (if negative then [0x2D] else []) ++ whole))

theorem ne_of_isDigit {b c : Byte} (digit : isDigit b = true) (other : isDigit c = false) : b ≠ c := by
  rintro rfl
  rw [digit] at other
  cases other

/-- The parse of a number that is spelled out (R66 to R68). -/
theorem parseNumber_of_spelled {n : NumPart} {length : Nat} {content body whole fraction : List Byte}
    {negative : Bool} (trimmed : trimBoth content = body)
    (spelled : Spelled n.signed negative whole fraction body) :
    parseNumber n length content = rangeTest n length
      (if negative then -(scaledMagnitude n.scale whole fraction : Int) else scaledMagnitude n.scale whole fraction) := by
  obtain ⟨signs, some, digits, spelling⟩ := spelled
  obtain ⟨rest, rfl, points⟩ : ∃ rest, body = (if negative then [0x2D] else []) ++ (whole ++ rest) ∧
      (rest = 0x2E :: fraction ∨ (rest = [] ∧ fraction = [])) := by
    obtain rfl | ⟨none, rfl⟩ := spelling
    · exact ⟨_, List.append_assoc .., .inl rfl⟩
    · exact ⟨[], by rw [List.append_nil], .inr ⟨rfl, none⟩⟩
  have apart : ∀ b ∈ whole, decide (b ≠ pointGlyph) = true := fun b listed =>
    decide_eq_true (ne_of_isDigit (digits b (List.mem_append_left _ listed)) rfl)
  have wholes : (whole ++ rest).takeWhile (fun b => decide (b ≠ pointGlyph)) = whole := by
    rw [List.takeWhile_append_of_pos apart]
    obtain rfl | ⟨rfl, _⟩ := points
    · rw [List.takeWhile_cons_of_neg (by decide), List.append_nil]
    · rw [List.takeWhile_nil, List.append_nil]
  have fractions : ((whole ++ rest).dropWhile (fun b => decide (b ≠ pointGlyph))).drop 1 = fraction := by
    rw [List.dropWhile_append_of_pos apart]
    obtain rfl | ⟨rfl, rfl⟩ := points
    · rw [List.dropWhile_cons_of_neg (by decide)]
      rfl
    · rfl
  have filled : whole ++ rest ≠ [] := by
    obtain rfl | ⟨rfl, rfl⟩ := points
    · simp
    · exact some
  have head : (whole ++ rest).head? ≠ .some minusGlyph := by
    intro first
    cases whole with
    | cons b others =>
      exact ne_of_isDigit (digits b (by simp)) rfl (Option.some.inj first)
    | nil =>
      obtain rfl | ⟨rfl, _⟩ := points
      · cases first
      · cases first
  have sign : (n.signed && decide (((if negative then [0x2D] else []) ++ (whole ++ rest)).head? =
      .some minusGlyph)) = negative := by
    cases negative with
    | true =>
      rw [signs rfl]
      rfl
    | false =>
      rw [if_neg Bool.false_ne_true, List.nil_append, decide_eq_false head, Bool.and_false]
  have number : (if negative then ((if negative then [0x2D] else []) ++ (whole ++ rest)).drop 1
      else (if negative then [0x2D] else []) ++ (whole ++ rest)) = whole ++ rest := by
    cases negative <;> rfl
  have tested : ((whole ++ fraction).all isDigit && !(whole ++ fraction).isEmpty) = true := by
    rw [Bool.and_eq_true, List.all_eq_true, Bool.not_eq_true', List.isEmpty_eq_false_iff]
    exact ⟨digits, some⟩
  unfold parseNumber
  dsimp only
  rw [trimmed, if_neg (by simp [filled]), sign, number, wholes, fractions, if_pos tested]

/-- What follows the whole digits of a number is nothing, or a point and the rest. -/
theorem dropWhile_point (l : List Byte) : l.dropWhile (fun b => decide (b ≠ pointGlyph)) = [] ∨
    l.dropWhile (fun b => decide (b ≠ pointGlyph)) =
      0x2E :: (l.dropWhile fun b => decide (b ≠ pointGlyph)).drop 1 := by
  induction l with
  | nil => exact .inl rfl
  | cons b rest ih =>
    by_cases point : b = pointGlyph
    · rw [List.dropWhile_cons_of_neg (by simp [point]), point]
      exact .inr rfl
    · rwa [List.dropWhile_cons_of_pos (by simp [point])]

/-- A body whose glyphs pass the digit test is spelled out. -/
theorem spelled_of_tested {signed : Bool} {body number : List Byte} {negative : Bool}
    (signs : negative = true → signed = true) (parts : body = (if negative then [0x2D] else []) ++ number)
    (tested : let whole := number.takeWhile fun b => decide (b ≠ pointGlyph)
      let fraction := (number.dropWhile fun b => decide (b ≠ pointGlyph)).drop 1
      ((whole ++ fraction).all isDigit && !(whole ++ fraction).isEmpty) = true) :
    ∃ whole fraction, Spelled signed negative whole fraction body := by
  refine ⟨number.takeWhile fun b => decide (b ≠ pointGlyph),
    (number.dropWhile fun b => decide (b ≠ pointGlyph)).drop 1, signs, ?_⟩
  dsimp only at tested
  rw [Bool.and_eq_true, List.all_eq_true, Bool.not_eq_true', List.isEmpty_eq_false_iff] at tested
  refine ⟨tested.2, tested.1, ?_⟩
  have whole := List.takeWhile_append_dropWhile (p := fun b => decide (b ≠ pointGlyph)) (l := number)
  rw [parts, List.append_assoc]
  obtain none | point := dropWhile_point number
  · rw [none, List.append_nil] at whole
    exact .inr ⟨by rw [none]; rfl, by rw [whole]⟩
  · rw [point] at whole
    exact .inl (by rw [whole])

/-- Content that is not a number (R66). -/
theorem parseNumber_of_unspelled {n : NumPart} {length : Nat} {content body : List Byte}
    (trimmed : trimBoth content = body) (some : body ≠ [])
    (unspelled : ∀ negative whole fraction, ¬Spelled n.signed negative whole fraction body) :
    parseNumber n length content = .format := by
  unfold parseNumber
  dsimp only
  rw [trimmed, if_neg some]
  cases negative : n.signed && decide (body.head? = .some minusGlyph) with
  | true =>
    obtain ⟨signed, minus⟩ := Bool.and_eq_true_iff.mp negative
    refine if_neg fun tested => ?_
    have parts : body = [0x2D] ++ body.drop 1 := by
      cases body with
      | nil => exact absurd rfl some
      | cons b rest =>
        obtain rfl := Option.some.inj (of_decide_eq_true minus)
        rfl
    obtain ⟨whole, fraction, spelled⟩ := spelled_of_tested (negative := true) (fun _ => signed) parts tested
    exact unspelled _ _ _ spelled
  | false =>
    refine if_neg fun tested => ?_
    obtain ⟨whole, fraction, spelled⟩ :=
      spelled_of_tested (signed := n.signed) (negative := false) nofun (List.nil_append _).symm tested
    exact unspelled _ _ _ spelled

theorem parseNumber_of_empty {n : NumPart} {length : Nat} {content : List Byte} (trimmed : trimBoth content = []) :
    parseNumber n length content = .empty := by
  unfold parseNumber
  rw [trimmed]
  rfl

/-! ## The magnitude and the range of a number (R67, R68) -/

/-- The magnitude as the rule gives it: the digits brought to the scale, rounded by the first discarded one. -/
theorem scaledMagnitude_eq {scale : Nat} {whole fraction : List Byte}
    (digits : ∀ b ∈ whole ++ fraction, isDigit b = true) : scaledMagnitude scale whole fraction =
      if fraction.length ≤ scale then digitsValue (whole ++ fraction) * 10 ^ (scale - fraction.length)
      else digitsValue (whole ++ fraction.take scale) + (if 0x35 ≤ (fraction.getD scale 0).toNat then 1 else 0) := by
  unfold scaledMagnitude
  split
  case isTrue => rfl
  case isFalse longer =>
    have within : scale < fraction.length := Nat.lt_of_not_le longer
    have digit := (isDigit_iff _).mp (digits _ (List.mem_append_right whole (List.getElem_mem within)))
    have rounds : 5 ≤ digitValue (fraction.getD scale 0x30) ↔ 0x35 ≤ (fraction.getD scale 0).toNat := by
      rw [List.getD_eq_getElem _ _ within, List.getD_eq_getElem _ _ within, digitValue]
      omega
    simp only [rounds]

theorem rangeTest_eq {n : NumPart} {length magnitude : Nat} {v : Int} (size : v.natAbs = magnitude) :
    rangeTest n length v = if largestMagnitude length n.signed n.scale < magnitude ∨ v < n.lower ∨ n.upper < v
      then .range else .value v := by
  rw [rangeTest, size]
  by_cases beyond : largestMagnitude length n.signed n.scale < magnitude
  · rw [if_pos beyond, if_pos (.inl beyond)]
  · rw [if_neg beyond]
    simp only [beyond, false_or]

/-! ## Digits (R69) -/

theorem digitsValue_append (a b : List Byte) :
    digitsValue (a ++ b) = digitsValue a * 10 ^ b.length + digitsValue b := by
  induction b using List.reverseRecOn with
  | nil => simp [digitsValue]
  | append_singleton rest x ih =>
    have last (l : List Byte) : digitsValue (l ++ [x]) = digitsValue l * 10 + digitValue x := by
      rw [digitsValue, List.foldl_append]
      rfl
    rw [← List.append_assoc, last, last, ih, List.length_append, List.length_singleton, pow_succ]
    ring

theorem isDigit_digitGlyph {d : Nat} (digit : d < 10) : isDigit (digitGlyph d) = true := by
  rw [isDigit_iff, digitGlyph, BitVec.toNat_ofNat]
  omega

theorem digitValue_digitGlyph {d : Nat} (digit : d < 10) : digitValue (digitGlyph d) = d := by
  rw [digitValue, digitGlyph, BitVec.toNat_ofNat]
  omega

theorem digitsValue_singleton (b : Byte) : digitsValue [b] = digitValue b := by
  simp [digitsValue]

/-- The digits of a number: as many as there must be, read back as the number (R69). -/
theorem decimalOnto_spec {k fuel n : Nat} (small : n < 10 ^ (k + 1)) (fueled : k < fuel) (tail : List Byte) :
    ∃ digits, decimalOnto fuel n tail = digits ++ tail ∧ digits ≠ [] ∧ digits.length ≤ k + 1 ∧
      (∀ b ∈ digits, isDigit b = true) ∧ digitsValue digits = n := by
  induction k generalizing fuel n tail with
  | zero =>
    obtain ⟨fuel, rfl⟩ := Nat.exists_eq_add_of_lt fueled
    have digit : n < 10 := by simpa using small
    refine ⟨[digitGlyph n], ?_, by simp, Nat.le_refl _, ?_, ?_⟩
    · rw [Nat.zero_add, decimalOnto, if_pos digit]
      rfl
    · simpa using isDigit_digitGlyph digit
    · rw [digitsValue_singleton, digitValue_digitGlyph digit]
  | succ k ih =>
    obtain ⟨fuel, rfl⟩ : ∃ m, fuel = m + 1 := ⟨fuel - 1, by omega⟩
    by_cases digit : n < 10
    · refine ⟨[digitGlyph n], ?_, by simp, Nat.succ_le_succ (Nat.zero_le _), ?_, ?_⟩
      · rw [decimalOnto, if_pos digit]
        rfl
      · simpa using isDigit_digitGlyph digit
      · rw [digitsValue_singleton, digitValue_digitGlyph digit]
    · have last : n % 10 < 10 := Nat.mod_lt _ (by decide)
      have shorter : n / 10 < 10 ^ (k + 1) := by
        rw [pow_succ] at small
        omega
      obtain ⟨digits, eq, some, length, each, value⟩ := ih (fuel := fuel) shorter (by omega) (digitGlyph (n % 10) :: tail)
      refine ⟨digits ++ [digitGlyph (n % 10)], ?_, by simp, by simpa using length, fun b listed => ?_, ?_⟩
      · rw [decimalOnto, if_neg digit, eq, List.append_assoc]
        rfl
      · rcases List.mem_append.mp listed with early | late
        · exact each b early
        · rw [List.mem_singleton.mp late]
          exact isDigit_digitGlyph last
      · rw [digitsValue_append, value, digitsValue_singleton, digitValue_digitGlyph last, List.length_singleton]
        omega

theorem length_paddedDecimal (s n : Nat) : (paddedDecimal s n).length = s := by
  induction s generalizing n with
  | zero => rfl
  | succ s ih => rw [paddedDecimal, List.length_append, ih, List.length_singleton]

theorem isDigit_of_mem_paddedDecimal {s n : Nat} {b : Byte} (listed : b ∈ paddedDecimal s n) :
    isDigit b = true := by
  induction s generalizing n with
  | zero => cases listed
  | succ s ih =>
    rcases List.mem_append.mp listed with early | late
    · exact ih early
    · rw [List.mem_singleton.mp late]
      exact isDigit_digitGlyph (Nat.mod_lt _ (by decide))

theorem digitsValue_paddedDecimal (s n : Nat) : digitsValue (paddedDecimal s n) = n % 10 ^ s := by
  induction s generalizing n with
  | zero => simp [paddedDecimal, digitsValue, Nat.mod_one]
  | succ s ih =>
    rw [paddedDecimal, digitsValue_append, ih, digitsValue_singleton,
      digitValue_digitGlyph (Nat.mod_lt _ (by decide)), List.length_singleton,
      show 10 ^ (s + 1) = 10 * 10 ^ s from pow_succ' 10 s, Nat.mod_mul]
    ring

end Sys2Proof.Machine
end

section
/-! PROOFS. The canonical form of a value, which parses to it again. -/

namespace Sys2Proof.Machine

open Sys2Proof

/-! ## The canonical form (R69) -/

theorem ne_blank_of_isDigit {b : Byte} (digit : isDigit b = true) : b ≠ 0x00 ∧ b ≠ 0x20 :=
  ⟨ne_of_isDigit digit rfl, ne_of_isDigit digit rfl⟩

/-- A number that is spelled out holds no blank. -/
theorem Spelled.shown {signed negative : Bool} {whole fraction body : List Byte}
    (spelled : Spelled signed negative whole fraction body) {b : Byte} (listed : b ∈ body) :
    b ≠ 0x00 ∧ b ≠ 0x20 := by
  obtain ⟨_, _, digits, spelling⟩ := spelled
  have sign (held : b ∈ (if negative then [0x2D] else [] : List Byte)) : b ≠ 0x00 ∧ b ≠ 0x20 := by
    cases negative with
    | false => cases held
    | true =>
      rw [List.mem_singleton.mp held]
      decide
  have digit (held : b ∈ whole ++ fraction) : b ≠ 0x00 ∧ b ≠ 0x20 := ne_blank_of_isDigit (digits b held)
  obtain rfl | ⟨_, rfl⟩ := spelling
  · rcases List.mem_append.mp listed with early | late
    · rcases List.mem_append.mp early with first | whole
      exacts [sign first, digit (List.mem_append_left _ whole)]
    · rcases List.mem_cons.mp late with rfl | fraction
      · decide
      · exact digit (List.mem_append_right _ fraction)
  · rcases List.mem_append.mp listed with first | whole
    exacts [sign first, digit (List.mem_append_left _ whole)]

/-- The canonical form without the spaces before it. -/
def canonicalBody (n : NumPart) (v : Int) : List Byte :=
  (if v < 0 then [minusGlyph] else []) ++ decimal (v.natAbs / 10 ^ n.scale) ++
    (if 0 < n.scale then pointGlyph :: paddedDecimal n.scale (v.natAbs % 10 ^ n.scale) else [])

theorem canonical_eq (n : NumPart) (length : Nat) (v : Int) : canonical n length v =
    List.replicate (length - (canonicalBody n v).length) 0x20 ++ canonicalBody n v := rfl

section

variable {n : NumPart} {v : Int} {k : Nat}

/-- The canonical form spells its value out, in as many digits as there must be (R69). -/
theorem canonicalBody_spelled (signs : v < 0 → n.signed = true) (small : v.natAbs / 10 ^ n.scale < 10 ^ (k + 1))
    (fueled : k < 96) : ∃ whole fraction, Spelled n.signed (decide (v < 0)) whole fraction (canonicalBody n v) ∧
      fraction.length = n.scale ∧ digitsValue (whole ++ fraction) = v.natAbs ∧
      (canonicalBody n v).length ≤ (if n.signed then 1 else 0) + (k + 1) + (if n.scale = 0 then 0 else n.scale + 1) := by
  obtain ⟨whole, eq, some, length, digits, value⟩ := decimalOnto_spec small fueled []
  rw [List.append_nil] at eq
  have decimal : decimal (v.natAbs / 10 ^ n.scale) = whole := eq
  have signLength : (if v < 0 then [minusGlyph] else []).length ≤ if n.signed then 1 else 0 := by
    split
    case isTrue below =>
      rw [signs below]
      exact Nat.le_refl 1
    case isFalse => exact Nat.zero_le _
  have sign : (if decide (v < 0) then [0x2D] else []) = (if v < 0 then [minusGlyph] else [] : List Byte) := by
    simp only [decide_eq_true_iff]
    rfl
  refine ⟨whole, paddedDecimal n.scale (v.natAbs % 10 ^ n.scale),
    ⟨fun negative => signs (of_decide_eq_true negative), fun none => some (List.append_eq_nil_iff.mp none).1,
      fun b listed => ?_, ?_⟩, length_paddedDecimal .., ?_, ?_⟩
  · rcases List.mem_append.mp listed with early | late
    exacts [digits b early, isDigit_of_mem_paddedDecimal late]
  · rw [canonicalBody, decimal, sign]
    by_cases scaled : 0 < n.scale
    · exact .inl (by rw [if_pos scaled]; rfl)
    · refine .inr ⟨?_, by rw [if_neg scaled, List.append_nil]⟩
      rw [Nat.eq_zero_of_not_pos scaled]
      rfl
  · rw [digitsValue_append, value, length_paddedDecimal, digitsValue_paddedDecimal, Nat.mod_mod, Nat.div_add_mod']
  · rw [canonicalBody, decimal, List.length_append, List.length_append]
    by_cases scaled : 0 < n.scale
    · rw [if_pos scaled, if_neg (Nat.ne_of_gt scaled), List.length_cons, length_paddedDecimal]
      omega
    · rw [if_neg scaled, if_pos (Nat.eq_zero_of_not_pos scaled), List.length_nil]
      omega

/-- A canonical form is made of spaces and a number that is spelled out. -/
theorem ne_zero_of_mem_canonical {length : Nat} {negative : Bool} {whole fraction : List Byte}
    (spelled : Spelled n.signed negative whole fraction (canonicalBody n v)) {g : Byte}
    (listed : g ∈ canonical n length v) : g ≠ 0 := by
  rw [canonical_eq] at listed
  rcases List.mem_append.mp listed with space | body
  · rw [List.eq_of_mem_replicate space]
    decide
  · exact (spelled.shown body).1

theorem trimBoth_canonical {length : Nat} {negative : Bool} {whole fraction : List Byte}
    (spelled : Spelled n.signed negative whole fraction (canonicalBody n v)) :
    trimBoth (canonical n length v) = canonicalBody n v := by
  rw [canonical_eq, ← List.append_nil (_ ++ _)]
  refine trimBoth_of_ends (fun b listed => ?_) fun b ends => spelled.shown ?_
  · rw [List.append_nil] at listed
    exact .inr (List.eq_of_mem_replicate listed)
  · exact ends.elim List.mem_of_head? List.mem_of_getLast?

end

/-! ## The obligation -/

theorem digitCapacity_eq_sub (length : Nat) (signed : Bool) (scale : Nat) : digitCapacity length signed scale =
    (length : Int) - (if signed then 1 else 0) - (if scale = 0 then 0 else 1) := by
  unfold digitCapacity
  cases scale <;> rfl

/-- A value within the largest magnitude has no more digits than the capacity leaves before its point. -/
theorem div_lt_of_le_largestMagnitude {length m scale k : Nat} {signed : Bool}
    (capacity : digitCapacity length signed scale = k + 1 + scale) (within : m ≤ largestMagnitude length signed scale) :
    m / 10 ^ scale < 10 ^ (k + 1) := by
  have digits : (digitCapacity length signed scale).toNat = k + 1 + scale := by omega
  have positive : 0 < 10 ^ (k + 1 + scale) := Nat.pow_pos (by decide)
  rw [largestMagnitude, digits] at within
  rw [Nat.div_lt_iff_lt_mul (Nat.pow_pos (by decide)), ← pow_add]
  omega

/-- Settles O55: the parse by what is spelled, the capacity, and the canonical form spelled out. -/
theorem canonicalParses : Obligations.CanonicalParses := by
  refine ⟨fun n length lead body tail blank ends => ?_, fun length signed scale => ?_,
    fun n length v small roomy bounded within lower upper unsigned => ?_⟩
  · intro parsed spells
    have trimmed : trimBoth (lead ++ body ++ tail) = body := trimBoth_of_ends blank ends
    have spelled (negative : Bool) (whole fraction : List Byte) :
        Spelled n.signed negative whole fraction body ↔ spells negative whole fraction := by
      simp only [Spelled, spells, isDigit_iff]
    refine ⟨?_, fun negative whole fraction given => ?_, fun some unspelled => ?_⟩
    · rintro rfl
      exact parseNumber_of_empty trimmed
    · intro number magnitude w
      have given' := (spelled _ _ _).mpr given
      obtain ⟨_, _, digits, _⟩ := id given'
      have size : w.natAbs = magnitude := by
        cases negative <;> simp [w]
      have scaled : scaledMagnitude n.scale whole fraction = magnitude := scaledMagnitude_eq digits
      refine (parseNumber_of_spelled trimmed given').trans ?_
      rw [scaled]
      exact rangeTest_eq size
    · exact parseNumber_of_unspelled trimmed some fun negative whole fraction given =>
        unspelled negative whole fraction ((spelled ..).mp given)
  · intro d
    have capacity : digitCapacity length signed scale = d := digitCapacity_eq_sub ..
    refine ⟨capacity, ?_⟩
    have positive : 1 ≤ 10 ^ d.toNat := Nat.pow_pos (by decide)
    rw [largestMagnitude, capacity, Nat.cast_sub positive]
    push_cast
    rfl
  · obtain ⟨k, capacity⟩ : ∃ k : Nat, digitCapacity length n.signed n.scale = k + 1 + n.scale :=
      ⟨(digitCapacity length n.signed n.scale).toNat - 1 - n.scale, by omega⟩
    have signs (below : v < 0) : n.signed = true := by
      by_contra positive
      have := unsigned (Bool.not_eq_true _ ▸ positive)
      omega
    obtain ⟨whole, fraction, spelled, fractionLength, value, bodyLength⟩ :=
      canonicalBody_spelled signs (div_lt_of_le_largestMagnitude capacity within) (by omega)
    refine ⟨?_, ?_, fun g listed => ne_zero_of_mem_canonical spelled listed⟩
    · have room := (digitCapacity_eq_sub length n.signed n.scale).symm.trans capacity
      rw [canonical_eq, List.length_append, List.length_replicate]
      split_ifs at bodyLength room <;> omega
    · have magnitude : scaledMagnitude n.scale whole fraction = v.natAbs := by
        rw [scaledMagnitude, if_pos fractionLength.le, fractionLength, Nat.sub_self, pow_zero, Nat.mul_one, value]
      have same : (if decide (v < 0) then -(v.natAbs : Int) else v.natAbs) = v := by
        simp only [decide_eq_true_iff]
        split_ifs <;> omega
      rw [parseNumber_of_spelled (trimBoth_canonical spelled) spelled, magnitude, same, rangeTest_eq rfl]
      exact if_neg (by omega)

end Sys2Proof.Machine
end
